-- ==== Sys2Proof/Word.lean ====
section
/-!
DEFINITION. The word types of the block: everything it stores or moves is an unsigned byte, a 7-bit address or one bit
(00_scope section 5).
-/

namespace Sys2Proof

/-- A byte: 8 bits, unsigned, bit 7 the most significant (00_scope section 5). -/
abbrev Byte := BitVec 8

/-- A 7-bit slave address, 0..127 (R8, R61). -/
abbrev Addr7 := BitVec 7

/-- One bit on the bus: 0 is the line pulled low, 1 the line released (R82). -/
abbrev Level := BitVec 1

end Sys2Proof
end

