-- ==== Sys2Proof/Config.lean ====
section
/-!
DEFINITION. What is fixed for the lifetime of the device (R8), the reference configuration (R9), and the one free value of
the model: the byte the shift register holds after the operation `RESET` (R16, U2).
-/

namespace Sys2Proof

/-- The implementation parameters of R8. They are no mutable state (R11, R22): no operation writes them (log 1). -/
structure Config where
  /-- `N`, the number of registers; 1 to 256 (`Config.wf`). -/
  n : Nat
  /-- `SLAVE_ADDR`. -/
  slaveAddr : Addr7
  /-- `MASK[0..N-1]`, index 0 first: 1 = the master may set that bit (R11). -/
  mask : List Byte
  /-- `INIT[0..N-1]`, index 0 first: the registers' reset values (R10). -/
  initRegs : List Byte
  /-- `TALLY_W`, the width of the update tally. -/
  tallyW : Nat
  deriving DecidableEq, Repr

/-- The reference configuration (R9). DESIGN CHOICE (log 1): `SLAVE_ADDR` and `TALLY_W` are the spec's own example values. -/
def Config.reference : Config where
  n := 8
  slaveAddr := 0x30#7
  mask := [0xFF#8, 0x00#8, 0x3F#8, 0xFF#8, 0x00#8, 0x00#8, 0x00#8, 0xFF#8]
  initRegs := [0x00#8, 0x00#8, 0x00#8, 0x00#8, 0x00#8, 0x00#8, 0xFF#8, 0x80#8]
  tallyW := 8

/-- FREE VALUE (log 3): the byte in `ShiftReg` after the operation `RESET`, which the spec leaves unspecified (R16, R30,
R150, U2), applied to the counter `State.freshCount`. It has no body: nothing can be proved of its value. -/
opaque Config.freeByte : Nat → Byte

end Sys2Proof
end

