-- ==== Sys2Proof/Syntax.lean ====
section
/-!
DEFINITION. The operations of the block: one constructor per row of spec/opcode_table.json (R70), the modes that select an
engine step (R67), and the requests that the agents outside the block can make (R4, R5).
-/

namespace Sys2Proof

/-- `State`, the engine state: exactly four values (R12). -/
inductive EngineState where
  /-- Idle, listening for an address byte. -/
  | addrMatch
  /-- Expecting a register-address byte. -/
  | regAddr
  /-- Streaming register bytes outward. -/
  | masterRead
  /-- Accepting register bytes inward. -/
  | masterWrite
  deriving DecidableEq, Repr

/-- The numbering of the four engine states (R12, D11). It is not observable. -/
def EngineState.code : EngineState → BitVec 2
  | .addrMatch => 0#2
  | .regAddr => 1#2
  | .masterRead => 2#2
  | .masterWrite => 3#2

/-- `Phase`: which phase the next overflow step is (R15). -/
inductive Phase where
  /-- The counter counts a data unit of 8 bits. -/
  | preAck
  /-- The counter counts an ack unit of 1 bit. -/
  | postAck
  deriving DecidableEq, Repr

/-- The operations of the block, one per row of the operation table (R70). An engine step carries the fields of the latched
byte that its rule names as operands (R68). -/
inductive Instr where
  /-- `START` (R80). -/
  | start
  /-- `STOP` (R81). -/
  | stop
  /-- `BIT(m)` (R82): one bit time in which the master drives the level `m`. -/
  | bit (m : Level)
  /-- `P1.ADDR.NAK` (R91): address mismatch; `rw` is ignored. -/
  | p1AddrNak (addr : Addr7) (rw : Level)
  /-- `P1.ADDR.RD` (R92): address match, `rw == 1`. -/
  | p1AddrRd (addr : Addr7)
  /-- `P1.ADDR.WR` (R93): address match, `rw == 0`. -/
  | p1AddrWr (addr : Addr7)
  /-- `P1.REG.NAK` (R94): register address out of range. -/
  | p1RegNak (offset : Byte)
  /-- `P1.REG.ACK` (R95): register address accepted. -/
  | p1RegAck (offset : Byte)
  /-- `P1.WR` (R96): a data byte from the master. -/
  | p1Wr (data : Byte)
  /-- `P1.RD` (R97): a read data byte has been shifted out. -/
  | p1Rd
  /-- `P1.DEF` (R98): the defensive row, selected by no state value. -/
  | p1Def
  /-- `P2.RD.NAK` (R100): the master answered a read byte with NAK. -/
  | p2RdNak
  /-- `P2.RD.ACK` (R101): ACK in `MasterRead`; produce the next read byte. -/
  | p2RdAck
  /-- `P2.OTHER` (R102): the ack unit of any other state has completed. -/
  | p2Other
  /-- `REG_READ(i)` (R110). -/
  | regRead (i : Nat)
  /-- `REG_WRITE_RAW(i, v)` (R111). -/
  | regWriteRaw (i : Nat) (v : Byte)
  /-- `MASK_READ(i)` (R112). -/
  | maskRead (i : Nat)
  /-- `CHECK_STOP` with `StopFlag == 0` (R120). -/
  | checkStopIdle
  /-- `CHECK_STOP` with `StopFlag == 1` (R121). -/
  | checkStopDone
  /-- `INIT` (R123). -/
  | init
  /-- `RESET` (R150). -/
  | reset
  deriving DecidableEq, Repr

/-- The engine steps alone: what the overflow dispatch selects from (R71, R83). -/
inductive EngineStep where
  | addrNak (addr : Addr7) (rw : Level)
  | addrRd (addr : Addr7)
  | addrWr (addr : Addr7)
  | regNak (offset : Byte)
  | regAck (offset : Byte)
  | wr (data : Byte)
  | rd
  /-- The row no state value selects (R98). -/
  | defensive
  | rdNak
  | rdAck
  | other
  deriving DecidableEq, Repr

/-- The row of the operation table that an engine step is. -/
def EngineStep.toInstr : EngineStep → Instr
  | .addrNak a rw => .p1AddrNak a rw
  | .addrRd a => .p1AddrRd a
  | .addrWr a => .p1AddrWr a
  | .regNak o => .p1RegNak o
  | .regAck o => .p1RegAck o
  | .wr d => .p1Wr d
  | .rd => .p1Rd
  | .defensive => .p1Def
  | .rdNak => .p2RdNak
  | .rdAck => .p2RdAck
  | .other => .p2Other

/-- What an agent outside the block can do to it (R4, R5): a bus event of the master, a call of the host, or the reset
input. The engine steps are absent: the engine "never acts on its own, only as part of a `BIT` event". -/
inductive Request where
  | start
  | stop
  | bit (m : Level)
  | regRead (i : Nat)
  | regWriteRaw (i : Nat) (v : Byte)
  | maskRead (i : Nat)
  /-- The host's call of `CHECK_STOP`; which of its two rows runs is decided by `StopFlag` (R70). -/
  | checkStop
  | init
  | reset
  deriving DecidableEq, Repr

end Sys2Proof
end

