-- ==== Sys2Proof/WellFormed.lean ====
section
/-!
DEFINITION. Which configurations are configurations of the block (R8, U5), and which operands an operation can carry: an
engine step's are those its selector admits (R70), a host operation's index is below `N` (R110 to R112).
-/

namespace Sys2Proof

/-- A configuration of the block: `1 <= N <= 256`, one mask and one reset value per register, `TALLY_W >= 1` (R8). That
`SLAVE_ADDR` is below 128 is in its type. Outside these ranges it is "not a configuration of the block" (U5). -/
abbrev Config.wf (c : Config) : Prop :=
  1 ≤ c.n ∧ c.n ≤ 256 ∧ c.mask.length = c.n ∧ c.initRegs.length = c.n ∧ 1 ≤ c.tallyW

/-- The operands are ones the operation's selector admits in this configuration (R70). -/
def Instr.wf (c : Config) : Instr → Bool
  | .start => true
  | .stop => true
  | .bit _ => true
  | .p1AddrNak a _ => decide (a ≠ 0#7 ∧ a ≠ c.slaveAddr)
  | .p1AddrRd a => decide (a = 0#7 ∨ a = c.slaveAddr)
  | .p1AddrWr a => decide (a = 0#7 ∨ a = c.slaveAddr)
  | .p1RegNak o => decide (c.n ≤ o.toNat)
  | .p1RegAck o => decide (o.toNat < c.n)
  | .p1Wr _ => true
  | .p1Rd => true
  | .p1Def => true
  | .p2RdNak => true
  | .p2RdAck => true
  | .p2Other => true
  | .regRead i => decide (i < c.n)
  | .regWriteRaw i _ => decide (i < c.n)
  | .maskRead i => decide (i < c.n)
  | .checkStopIdle => true
  | .checkStopDone => true
  | .init => true
  | .reset => true

/-- The `Phase` and `State` part of an engine step's selector (R70). A bus event or a host operation is selected by itself,
in every mode; no mode selects `P1.DEF` (R98). -/
def Instr.selectedIn : Instr → Phase → EngineState → Bool
  | .start, _, _ => true
  | .stop, _, _ => true
  | .bit _, _, _ => true
  | .p1AddrNak _ _, ph, st => ph == .preAck && st == .addrMatch
  | .p1AddrRd _, ph, st => ph == .preAck && st == .addrMatch
  | .p1AddrWr _, ph, st => ph == .preAck && st == .addrMatch
  | .p1RegNak _, ph, st => ph == .preAck && st == .regAddr
  | .p1RegAck _, ph, st => ph == .preAck && st == .regAddr
  | .p1Wr _, ph, st => ph == .preAck && st == .masterWrite
  | .p1Rd, ph, st => ph == .preAck && st == .masterRead
  | .p1Def, _, _ => false
  | .p2RdNak, ph, st => ph == .postAck && st == .masterRead
  | .p2RdAck, ph, st => ph == .postAck && st == .masterRead
  | .p2Other, ph, st => ph == .postAck && st != .masterRead
  | .regRead _, _, _ => true
  | .regWriteRaw _ _, _, _ => true
  | .maskRead _, _, _ => true
  | .checkStopIdle, _, _ => true
  | .checkStopDone, _, _ => true
  | .init, _, _ => true
  | .reset, _, _ => true

end Sys2Proof
end

