-- ==== Sys2Proof/Decode.lean ====
section
/-!
DEFINITION. Taking fields out of the latched byte (R68), the address matcher (R69), the decoder from `(Phase, State,
ShiftReg)` to the one engine step selected (R67, R70, R71, R83), the selection of a requested operation (R70), and the
encoder. The decoder is total and rejects nothing: "The block has no illegal encoding that traps" (R72).
-/

namespace Sys2Proof

/-- `addr = B[7:1]` (R68). -/
def addrOf (b : Byte) : Addr7 := b.extractLsb' 1 7

/-- `rw = B[0]` (R68). -/
def rwOf (b : Byte) : Level := b.extractLsb' 0 1

/-- `offset = zext(B)` (R68); it is compared as a number with `N` (R117 f). -/
def offsetOf (b : Byte) : Byte := b

/-- `data = B` (R68). -/
def dataOf (b : Byte) : Byte := b

/-- `ackbit = B[0]` in Phase 2 (R68, D25). -/
def ackBitOf (b : Byte) : Level := b.extractLsb' 0 1

/-- The address matcher: 0 matches whatever `SLAVE_ADDR` is (R69). -/
def addrMatches (c : Config) (a : Addr7) : Bool := a == 0#7 || a == c.slaveAddr

/-- The register-address check, unsigned over all 8 bits and on integers (R94, R95, R117 f). -/
def offsetInRange (c : Config) (o : Byte) : Bool := decide (o.toNat < c.n)

/-- The engine step of a completed data unit: Phase 1 (R83). No state value selects `P1.DEF` (R98). -/
def decodePhase1 (c : Config) (st : EngineState) (b : Byte) : EngineStep :=
  match st with
  | .addrMatch =>
    if addrMatches c (addrOf b) = false then .addrNak (addrOf b) (rwOf b)
    else if rwOf b = 1#1 then .addrRd (addrOf b)
    else .addrWr (addrOf b)
  | .regAddr =>
    if offsetInRange c (offsetOf b) = false then .regNak (offsetOf b) else .regAck (offsetOf b)
  | .masterWrite => .wr (dataOf b)
  | .masterRead => .rd

/-- The engine step of a completed ack unit: Phase 2 (R83). -/
def decodePhase2 (st : EngineState) (b : Byte) : EngineStep :=
  match st with
  | .masterRead => if ackBitOf b = 1#1 then .rdNak else .rdAck
  | .addrMatch => .other
  | .regAddr => .other
  | .masterWrite => .other

/-- The decoder of R67: from `(Phase, State, ShiftReg)` to the engine step. -/
def decodeStep (c : Config) (ph : Phase) (st : EngineState) (b : Byte) : EngineStep :=
  match ph with
  | .preAck => decodePhase1 c st b
  | .postAck => decodePhase2 st b

/-- The operation a request selects (R70). `CHECK_STOP` has a row for each value of `StopFlag`. -/
def selectRequest (stopFlag : Bool) : Request → Instr
  | .start => .start
  | .stop => .stop
  | .bit m => .bit m
  | .regRead i => .regRead i
  | .regWriteRaw i v => .regWriteRaw i v
  | .maskRead i => .maskRead i
  | .checkStop => if stopFlag then .checkStopDone else .checkStopIdle
  | .init => .init
  | .reset => .reset

/-- The address byte of R61: `addr` in bits 7:1, `rw` in bit 0. -/
def addressByte (a : Addr7) (rw : Level) : Byte := a ++ rw

/-- The latched byte of an operation, bits 7..0 as the table's `encoding` gives them (R75); `none` for the rows whose
encoding is "-". Bits the table marks `x` are written 0, but for the `rw` of `P1.ADDR.NAK` (log 11). -/
def encode : Instr → Option Byte
  | .start => none
  | .stop => none
  | .bit _ => none
  | .p1AddrNak a rw => some (addressByte a rw)
  | .p1AddrRd a => some (addressByte a 1#1)
  | .p1AddrWr a => some (addressByte a 0#1)
  | .p1RegNak o => some o
  | .p1RegAck o => some o
  | .p1Wr d => some d
  | .p1Rd => some 0#8
  | .p1Def => some 0#8
  | .p2RdNak => some 1#8
  | .p2RdAck => some 0#8
  | .p2Other => some 0#8
  | .regRead _ => none
  | .regWriteRaw _ _ => none
  | .maskRead _ => none
  | .checkStopIdle => none
  | .checkStopDone => none
  | .init => none
  | .reset => none

/-- The bits the table's `encoding` fixes in an operation's byte (R75), as a mask and the value under it: `aaaaaaa1`,
`aaaaaaa0`, `xxxxxxx1`, `xxxxxxx0`; the other rows fix none. -/
def fixedBits : Instr → Byte × Byte
  | .start => (0#8, 0#8)
  | .stop => (0#8, 0#8)
  | .bit _ => (0#8, 0#8)
  | .p1AddrNak _ _ => (0#8, 0#8)
  | .p1AddrRd _ => (1#8, 1#8)
  | .p1AddrWr _ => (1#8, 0#8)
  | .p1RegNak _ => (0#8, 0#8)
  | .p1RegAck _ => (0#8, 0#8)
  | .p1Wr _ => (0#8, 0#8)
  | .p1Rd => (0#8, 0#8)
  | .p1Def => (0#8, 0#8)
  | .p2RdNak => (1#8, 1#8)
  | .p2RdAck => (1#8, 0#8)
  | .p2Other => (0#8, 0#8)
  | .regRead _ => (0#8, 0#8)
  | .regWriteRaw _ _ => (0#8, 0#8)
  | .maskRead _ => (0#8, 0#8)
  | .checkStopIdle => (0#8, 0#8)
  | .checkStopDone => (0#8, 0#8)
  | .init => (0#8, 0#8)
  | .reset => (0#8, 0#8)

/-- The operation an 8-bit table word stands for, read as the first unit after reset is: an address byte, in `PreAck` and
`AddrMatch`, in the reference configuration (log 10). A word alone does not say its mode (R67), and the rows with encoding
"-" have no word; other widths are refused. -/
def decodeTableWord (nbits w : Nat) : Option Instr :=
  if nbits = 8 ∧ w < 256 then
    some (decodeStep Config.reference .preAck .addrMatch (BitVec.ofNat 8 w)).toInstr
  else none

end Sys2Proof
end

