-- ==== Sys2Proof/Machine/State.lean ====
section
/-!
DEFINITION. The state of the block as plain data (R10 to R19), the reasons a step can stop, and the state after reset (R30).
-/

namespace Sys2Proof.Machine

/-- The register file (R10, R40) as the cells that differ from their reset value: index and byte, indices strictly rising;
an unlisted index reads as `INIT` at that index (log 12). -/
abbrev Memory := List Host.Cell

/-- `Dir`, the data-line direction (R18). -/
inductive Dir where
  /-- `In`: listening, the line is released. -/
  | listening
  /-- `Out`: driving `ShiftReg[7]`. -/
  | driving
  deriving DecidableEq, Repr

/-- What an observer outside the block sees of an operation (R7). -/
inductive Output where
  /-- The wire value of the data line during a `BIT` (R82). -/
  | wire (w : Level)
  /-- The byte returned by `REG_READ` (R110) or `MASK_READ` (R112). -/
  | byte (b : Byte)
  /-- The number returned by `CHECK_STOP` (R120, R121). -/
  | count (t : Nat)
  deriving DecidableEq, Repr

/-- The state of the block: the nine elements of R10 to R19, the constant configuration, and three fields of the model's
own (`pending`, `output`, `freshCount`). -/
structure State where
  /-- The parameters of R8; constant (log 1). -/
  cfg : Config
  /-- `regs` (R10). -/
  regs : Memory
  /-- `State` (R12). -/
  engineState : EngineState
  /-- `Ptr` (R13). -/
  ptr : Byte
  /-- `Tally` (R14), a number of `TALLY_W` bits (log 13). -/
  tally : Nat
  /-- `Phase` (R15). -/
  phase : Phase
  /-- `ShiftReg` (R16). -/
  shiftReg : Byte
  /-- `BitCount` (R17), 0 to 8; 0 is disarmed (log 13). -/
  bitCount : Nat
  /-- `Dir` (R18). -/
  dir : Dir
  /-- `StopFlag` (R19). -/
  stopFlag : Bool
  /-- The model's own: what the agents outside the block do next, oldest first (R5, R6; log 5). -/
  pending : List Request
  /-- The model's own: what the last operation put out, if anything (R7; log 7). -/
  output : Option Output
  /-- The model's own: how many free values have been drawn (log 4). -/
  freshCount : Nat
  deriving DecidableEq, Repr

/-- Why the machine stops with a fault. -/
inductive Fault where
  /-- Raised by `P1.WR` and `P2.RD.ACK` when `Ptr >= N`: "an out-of-range pointer must never be dereferenced" (R13). Safe:
  no state reached from reset raises it (R28, R115; log 8). -/
  | pointerOutOfRange (ptr : Byte)
  deriving DecidableEq, Repr

/-- Why the machine gives an operation no meaning. -/
inductive Refusal where
  /-- Raised by `exec` for an operation that has no meaning yet; no arm raises it. Safe. -/
  | notModelled (mnemonic : String)
  /-- Raised by `REG_READ`, `REG_WRITE_RAW` and `MASK_READ` with an index `>= N`: the spec refuses it (R113, U1). Safe. -/
  | indexOutOfRange (i : Nat)
  /-- Raised by the step when the parameters are outside the ranges of R8: "not a configuration of the block" (U5). Safe. -/
  | badConfiguration
  deriving DecidableEq, Repr

/-- How an operation ends. -/
abbrev Result := Host.Outcome State Fault Refusal

/-- The state after reset in a configuration (R30), with nothing requested. DESIGN CHOICE: `ShiftReg` 0x00, which the spec
leaves unspecified (log 2), and the model's own fields (log 4, 5, 7). -/
def State.resetOf (c : Config) : State where
  cfg := c
  regs := []
  engineState := .addrMatch
  ptr := 0#8
  tally := 0
  phase := .preAck
  shiftReg := 0x00#8
  bitCount := 8
  dir := .listening
  stopFlag := false
  pending := []
  output := none
  freshCount := 0

/-- The state after reset in the reference configuration (R9, R30). -/
def State.reset : State := State.resetOf Config.reference

end Sys2Proof.Machine
end

