-- ==== Sys2Proof/Machine/Flags.lean ====
section
/-!
DEFINITION. The arithmetic of the block: the operations (a) to (f) of R117, each once, and the conditions its one-bit status
elements stand for (R24). The block has no arithmetic flags.
-/

namespace Sys2Proof.Machine

/-- R117 (a), R49, R114: bits with mask 1 take the master's bit, bits with mask 0 keep the old one. -/
def mergeMasked (old mask new : Byte) : Byte := (old &&& ~~~mask) ||| (new &&& mask)

/-- R117 (b): `(p + 1) mod N`, the sum formed without truncation. -/
def nextIndex (n : Nat) (p : Byte) : Byte := BitVec.ofNat 8 ((p.toNat + 1) % n)

/-- `TALLY_MAX = 2^TALLY_W - 1` (R8). -/
def tallyMax (c : Config) : Nat := 2 ^ c.tallyW - 1

/-- R117 (c), R14: the saturating count. -/
def countUp (c : Config) (t : Nat) : Nat := min (t + 1) (tallyMax c)

/-- R117 (e), R82: `((s << 1) & 0xFF) | w`. -/
def shiftIn (s : Byte) (w : Level) : Byte := (s <<< 1) ||| w.setWidth 8

/-- `BitCount != 0`: the block counts bits (R17). -/
abbrev State.armed (s : State) : Prop := s.bitCount ≠ 0

end Sys2Proof.Machine
end

