-- ==== Sys2Proof/Machine/Ops.lean ====
section
/-!
DEFINITION. The named operations over the register file and the byte shifter: one read and one write of a register (R10),
the block's contribution to the data line (R18) and its wire value (R82), and the five helpers of R90. There is no operation
for taking an exception or returning from one: "The block raises no exception and takes no trap" (R130, R140, R141).
-/

namespace Sys2Proof.Machine

/-- `INIT[i]` (R8). -/
def initAt (c : Config) (i : Nat) : Byte := c.initRegs.getD i 0#8

/-- `MASK[i]` (R8, R11). -/
def maskAt (c : Config) (i : Nat) : Byte := c.mask.getD i 0#8

/-- The byte at index `i`; an unlisted index reads as its reset value. -/
def Memory.read (c : Config) (m : Memory) (i : Nat) : Byte :=
  match m with
  | [] => initAt c i
  | (j, b) :: rest => if j = i then b else Memory.read c rest i

/-- Write one byte, keeping the indices rising and listing no cell that equals its reset value. -/
def Memory.write (c : Config) (m : Memory) (i : Nat) (v : Byte) : Memory :=
  match m with
  | [] => if v = initAt c i then [] else [(i, v)]
  | (j, b) :: rest =>
    if j < i then (j, b) :: Memory.write c rest i v
    else if j = i then (if v = initAt c i then rest else (i, v) :: rest)
    else if v = initAt c i then (j, b) :: rest
    else (i, v) :: (j, b) :: rest

/-- The canonical form: indices strictly rising, all below `N`, and no cell equal to its reset value (log 12). -/
abbrev Memory.wf (c : Config) (m : Memory) : Prop :=
  m.Pairwise (fun x y => x.1 < y.1) ∧ (∀ cell ∈ m, cell.1 < c.n) ∧ ∀ cell ∈ m, cell.2 ≠ initAt c cell.1

/-- `regs[i]` (R10): the one read of a register, by either side. -/
def State.readReg (s : State) (i : Nat) : Byte := Memory.read s.cfg s.regs i

/-- `regs[i] <- v` (R10): the one write of a register, by either side. -/
def State.writeReg (s : State) (i : Nat) (v : Byte) : State := { s with regs := Memory.write s.cfg s.regs i v }

/-- `write_masked(i, b)` (R114). -/
def State.writeMasked (s : State) (i : Nat) (b : Byte) : State :=
  s.writeReg i (mergeMasked (s.readReg i) (maskAt s.cfg i) b)

/-- The block's contribution to the data line: it pulls low exactly when driving a 0 (R18, R85). -/
def State.contribution (s : State) : Level :=
  match s.dir with
  | .driving => s.shiftReg.extractLsb' 7 1
  | .listening => 1#1

/-- The wire value: the wired-AND of the master's level and the block's contribution (R82). -/
def State.wireLevel (s : State) (m : Level) : Level := m &&& s.contribution

/-- `arm(8)` (R90): count a data unit. -/
def State.armData (s : State) : State := { s with bitCount := 8, phase := .preAck }

/-- `arm(1)` (R90): count an ack unit. -/
def State.armAck (s : State) : State := { s with bitCount := 1, phase := .postAck }

/-- `listen(8)` (R90). -/
def State.listenData (s : State) : State := { s with dir := .listening }.armData

/-- `listen(1)` (R90). -/
def State.listenAck (s : State) : State := { s with dir := .listening }.armAck

/-- `drive_ack()` (R90): pull the line low for the coming ack unit. -/
def State.driveAck (s : State) : State := { s with shiftReg := 0x00#8, dir := .driving }.armAck

/-- `release()` (R90): let go of the bus until the next `START`. -/
def State.release (s : State) : State := { s with dir := .listening, bitCount := 0, phase := .preAck }

/-- `drive_nak()` (R90): a NAK is a released line, and the transaction is over for this device. -/
def State.driveNak (s : State) : State := s.release

/-- What `START` (R80) and `INIT` (R123) both do: `State <- AddrMatch`, count a data unit, release the line. -/
def State.awaitAddress (s : State) : State := { s with engineState := .addrMatch }.listenData

/-- Record what the operation puts out (R7; log 7). -/
def State.emit (s : State) (o : Option Output) : State := { s with output := o }

end Sys2Proof.Machine
end

