-- ==== Sys2Proof/Machine/Operands.lean ====
section
/-!
DEFINITION. The two paths into the register index space: the master's, through `Ptr` (R41), and the host's, by an index of
its own (R42).
-/

namespace Sys2Proof.Machine

/-- The master's path: the effective index is `Ptr` as it stands, "and it is always in range" (R41). `Ptr >= N` is in no
state reached from reset (R28) and is never dereferenced (R13): a fault. -/
def State.atPointer (s : State) (k : Nat → State) : Result :=
  if s.ptr.toNat < s.cfg.n then .next (k s.ptr.toNat) else .fault (.pointerOutOfRange s.ptr)

/-- `Ptr <- (Ptr + 1) mod N` (R13, R41). -/
def State.advancePtr (s : State) : State := { s with ptr := nextIndex s.cfg.n s.ptr }

/-- The host's path: the operation carries its index, and an index `>= N` is refused (R42, R113). -/
def State.atIndex (s : State) (i : Nat) (after : State) : Result :=
  if i < s.cfg.n then .next after else .refused (.indexOutOfRange i)

end Sys2Proof.Machine
end

