-- ==== Sys2Proof/Machine/Phase1.lean ====
section
/-!
DEFINITION. Phase 1, the pre-ack engine steps (41_overflow_phase1). Each runs inside the `BIT` event that completes a data
unit; its operands were taken from the latched byte before any helper overwrites `ShiftReg` (R68, D28).
-/

namespace Sys2Proof.Machine

/-- `P1.ADDR.NAK` (R91). -/
def execP1AddrNak (_addr : Addr7) (_rw : Level) (s : State) : Result :=
  .next { s.driveNak with engineState := .addrMatch }

/-- `P1.ADDR.RD` (R92): `Ptr` is neither reset nor loaded. -/
def execP1AddrRd (_addr : Addr7) (s : State) : Result :=
  .next { s.driveAck with engineState := .masterRead }

/-- `P1.ADDR.WR` (R93). -/
def execP1AddrWr (_addr : Addr7) (s : State) : Result :=
  .next { s.driveAck with ptr := 0#8, engineState := .regAddr }

/-- `P1.REG.NAK` (R94). -/
def execP1RegNak (_offset : Byte) (s : State) : Result :=
  .next { s.driveNak with engineState := .addrMatch }

/-- `P1.REG.ACK` (R95). -/
def execP1RegAck (offset : Byte) (s : State) : Result :=
  .next { { s with ptr := offset }.driveAck with engineState := .masterWrite }

/-- The register and tally part of `P1.WR` at index `p` (R96): nothing is written and nothing counted where the mask is 0. -/
def State.acceptByte (s : State) (p : Nat) (data : Byte) : State :=
  if maskAt s.cfg p ≠ 0x00#8 then { s.writeMasked p data with tally := countUp s.cfg s.tally } else s

/-- `P1.WR` (R96): mask and register are taken at the pointer before its advance (D28). -/
def execP1Wr (data : Byte) (s : State) : Result :=
  s.atPointer fun p => { (s.acceptByte p data).advancePtr.driveAck with engineState := .masterWrite }

/-- `P1.RD` (R97): the ack unit after a read byte belongs to the master. -/
def execP1Rd (s : State) : Result :=
  .next s.listenAck

/-- `P1.DEF` (R98): drive NAK, `State` unchanged. No state value selects it (log 9). -/
def execP1Def (s : State) : Result :=
  .next s.driveNak

end Sys2Proof.Machine
end

