-- ==== Sys2Proof/Machine/Phase2.lean ====
section
/-!
DEFINITION. Phase 2, the post-ack engine steps (42_overflow_phase2). Each runs inside the `BIT` event that completes an ack
unit.
-/

namespace Sys2Proof.Machine

/-- `P2.RD.NAK` (R100). -/
def execP2RdNak (s : State) : Result :=
  .next { s with ptr := 0#8, engineState := .addrMatch }.release

/-- `P2.RD.ACK` (R101): load `regs[Ptr]`, advance, drive the 8 bits. No mask is applied. -/
def execP2RdAck (s : State) : Result :=
  s.atPointer fun p => { s.advancePtr.armData with shiftReg := s.readReg p, dir := .driving, engineState := .masterRead }

/-- `P2.OTHER` (R102). -/
def execP2Other (s : State) : Result :=
  .next s.listenData

end Sys2Proof.Machine
end

