-- ==== Sys2Proof/Machine/BusEvents.lean ====
section
/-!
DEFINITION. The bus events (40_bus_events): `START`, `STOP`, and `BIT` with the overflow step that is its tail.
-/

namespace Sys2Proof.Machine

/-- `START` (R80): in any state of the block. -/
def execStart (s : State) : Result :=
  .next (s.awaitAddress.emit none)

/-- `STOP` (R81): `StopFlag` only; the engine does not react. -/
def execStop (s : State) : Result :=
  .next ({ s with stopFlag := true }.emit none)

/-- Run the engine step selected. -/
def runStep (e : EngineStep) (s : State) : Result :=
  match e with
  | .addrNak a rw => execP1AddrNak a rw s
  | .addrRd a => execP1AddrRd a s
  | .addrWr a => execP1AddrWr a s
  | .regNak o => execP1RegNak o s
  | .regAck o => execP1RegAck o s
  | .wr d => execP1Wr d s
  | .rd => execP1Rd s
  | .defensive => execP1Def s
  | .rdNak => execP2RdNak s
  | .rdAck => execP2RdAck s
  | .other => execP2Other s

/-- `overflow_step()` (R83): exactly one engine step, selected by `Phase`, `State` and `B = ShiftReg`. -/
def overflowStep (s : State) : Result :=
  runStep (decodeStep s.cfg s.phase s.engineState s.shiftReg) s

/-- Count one bit: the wire value goes into bit 0 and the counter goes down (R82, R117 d). -/
def State.countBit (s : State) (w : Level) : State :=
  { s with shiftReg := shiftIn s.shiftReg w, bitCount := s.bitCount - 1 }

/-- `BIT(m)` (R82): put out the wire value; if armed, count the bit, and at 0 run the overflow step in the same operation. -/
def execBit (m : Level) (s : State) : Result :=
  let out := s.emit (some (.wire (s.wireLevel m)))
  if s.bitCount = 0 then .next out
  else
    let counted := out.countBit (s.wireLevel m)
    if counted.bitCount = 0 then overflowStep counted else .next counted

end Sys2Proof.Machine
end

