-- ==== Sys2Proof/Machine/RegisterFile.lean ====
section
/-!
DEFINITION. The host's operations on the register file (43_register_file_ops). None is masked, moves `Ptr` or counts.
-/

namespace Sys2Proof.Machine

/-- `REG_READ(i)` (R110). -/
def execRegRead (i : Nat) (s : State) : Result :=
  s.atIndex i (s.emit (some (.byte (s.readReg i))))

/-- `REG_WRITE_RAW(i, v)` (R111): all 8 bits, whatever `MASK[i]`. -/
def execRegWriteRaw (i : Nat) (v : Byte) (s : State) : Result :=
  s.atIndex i ((s.writeReg i v).emit none)

/-- `MASK_READ(i)` (R112). -/
def execMaskRead (i : Nat) (s : State) : Result :=
  s.atIndex i (s.emit (some (.byte (maskAt s.cfg i))))

end Sys2Proof.Machine
end

