-- ==== Sys2Proof/Machine/StopMonitor.lean ====
section
/-!
DEFINITION. The stop-condition monitor, `INIT` (44_stop_monitor_init) and the operation `RESET` (70_reset_and_hazards).
-/

namespace Sys2Proof.Machine

/-- `CHECK_STOP` when `StopFlag == 0` (R120): returns 0, no side effects. -/
def execCheckStopIdle (s : State) : Result :=
  .next (s.emit (some (.count 0)))

/-- `CHECK_STOP` when `StopFlag == 1` (R121): `Ptr` is reset only if `Tally != 0` (C1, D13); the shifter is not touched. -/
def execCheckStopDone (s : State) : Result :=
  .next ({ s with
    stopFlag := false
    engineState := .addrMatch
    ptr := if s.tally ≠ 0 then 0#8 else s.ptr
    tally := 0 }.emit (some (.count s.tally)))

/-- `INIT` (R123): the effect on the state is that of `START`. -/
def execInit (s : State) : Result :=
  .next (s.awaitAddress.emit none)

/-- `RESET` (R150): every element at its reset value (R30). `ShiftReg` is unspecified: a free value (U2; log 3). The
configuration is constant and the requests not yet made are not the block's. -/
def execReset (s : State) : Result :=
  .next { State.resetOf s.cfg with
    shiftReg := Config.freeByte s.freshCount
    freshCount := s.freshCount + 1
    pending := s.pending }

end Sys2Proof.Machine
end

