-- ==== Sys2Proof/Machine/Dispatch.lean ====
section
/-!
DEFINITION. One arm per operation of the table: a direct call of its meaning. Which operation runs is decided by the
request (R70) or by the overflow step (R83), not here.
-/

namespace Sys2Proof.Machine

def exec (i : Instr) (s : State) : Host.Outcome State Fault Refusal :=
  match i with
  | .start => Sys2Proof.Machine.execStart s
  | .stop => Sys2Proof.Machine.execStop s
  | .bit m => Sys2Proof.Machine.execBit m s
  | .p1AddrNak addr rw => Sys2Proof.Machine.execP1AddrNak addr rw s
  | .p1AddrRd addr => Sys2Proof.Machine.execP1AddrRd addr s
  | .p1AddrWr addr => Sys2Proof.Machine.execP1AddrWr addr s
  | .p1RegNak offset => Sys2Proof.Machine.execP1RegNak offset s
  | .p1RegAck offset => Sys2Proof.Machine.execP1RegAck offset s
  | .p1Wr data => Sys2Proof.Machine.execP1Wr data s
  | .p1Rd => Sys2Proof.Machine.execP1Rd s
  | .p1Def => Sys2Proof.Machine.execP1Def s
  | .p2RdNak => Sys2Proof.Machine.execP2RdNak s
  | .p2RdAck => Sys2Proof.Machine.execP2RdAck s
  | .p2Other => Sys2Proof.Machine.execP2Other s
  | .regRead idx => Sys2Proof.Machine.execRegRead idx s
  | .regWriteRaw idx v => Sys2Proof.Machine.execRegWriteRaw idx v s
  | .maskRead idx => Sys2Proof.Machine.execMaskRead idx s
  | .checkStopIdle => Sys2Proof.Machine.execCheckStopIdle s
  | .checkStopDone => Sys2Proof.Machine.execCheckStopDone s
  | .init => Sys2Proof.Machine.execInit s
  | .reset => Sys2Proof.Machine.execReset s

end Sys2Proof.Machine
end

