-- ==== Sys2Proof/Machine/Fetch.lean ====
section
/-!
DEFINITION. Where the next operation comes from: the oldest request of the agents outside the block (R5, R6), and how a
table word is placed so that the next step runs it.
-/

namespace Sys2Proof.Machine

/-- What the step finds to do. -/
inductive Fetched where
  /-- Nothing is requested: no operation occurs and the block keeps its state (R136, U11; log 6). -/
  | idle
  /-- The operation selected, and the state without its request. -/
  | op (i : Instr) (s : State)
  /-- The parameters are not a configuration of the block (U5). -/
  | reject (r : Refusal)

/-- Take the oldest request and select its operation (R70). -/
def State.fetch (s : State) : Fetched :=
  match s.pending with
  | [] => .idle
  | r :: rest =>
    if s.cfg.wf then .op (selectRequest s.stopFlag r) { s with pending := rest }
    else .reject .badConfiguration

/-- Place an 8-bit word as the latched byte of the next overflow step: its 7 upper bits have been shifted in, in `PreAck`
and `AddrMatch` as after reset, and the master is about to send its last bit (log 10). Other widths have no operation and
change nothing. -/
def State.placeWord (s : State) (nbits w : Nat) : State :=
  if nbits = 8 ∧ w < 256 then
    { s with
      engineState := .addrMatch
      phase := .preAck
      dir := .listening
      bitCount := 1
      shiftReg := BitVec.ofNat 8 (w / 2)
      pending := .bit (BitVec.ofNat 1 w) :: s.pending }
  else s

end Sys2Proof.Machine
end

