-- ==== Sys2Proof/Machine/Step.lean ====
section
/-!
DEFINITION. One step: the oldest request of the agents outside the block, as one atomic operation (R6).
-/

namespace Sys2Proof.Machine

/-- One operation of the block. With nothing requested the block keeps its state (R136; log 6). -/
def step (s : State) : Host.Outcome State Fault Refusal :=
  match s.fetch with
  | .idle => .next s
  | .op i s' => exec i s'
  | .reject r => .refused r

/-- `s` with the operation of a table word made ready, so that the next step runs it (log 10). -/
def State.withFetchWord (s : State) (nbits w : Nat) : State := s.placeWord nbits w

end Sys2Proof.Machine
end

