-- ==== Sys2Proof/Machine/Transactions.lean ====
section
/-!
DEFINITION. The spec's sequences of operations as lists of requests (R73, R74): what a well-behaved master does with its
bits. They are shorthand and add no behaviour.
-/

namespace Sys2Proof.Machine

/-- Bit `k` of a byte. -/
def bitOf (b : Byte) (k : Nat) : Level := b.extractLsb' k 1

/-- The 8 bits of a byte in the order of the wire, bit 7 first (R43). -/
def wireBits (b : Byte) : List Level :=
  [bitOf b 7, bitOf b 6, bitOf b 5, bitOf b 4, bitOf b 3, bitOf b 2, bitOf b 1, bitOf b 0]

/-- `W(b)` (R73): the master sends `b` and releases the line for the ack unit. -/
def sendByte (b : Byte) : List Request := (wireBits b ++ [1#1]).map .bit

/-- `R(a)` (R73): the master releases the line for a data unit and drives `a` in the ack unit. -/
def takeByte (a : Level) : List Request := (List.replicate 8 1#1 ++ [a]).map .bit

/-- `AW` (R73). -/
def writeAddress (c : Config) : Byte := addressByte c.slaveAddr 0#1

/-- `AR` (R73). -/
def readAddress (c : Config) : Byte := addressByte c.slaveAddr 1#1

/-- The bytes of a write frame after its `START`: the address byte, the register-address byte, the data (R66). -/
def writeFrame (c : Config) (i : Byte) (data : List Byte) : List Request :=
  sendByte (writeAddress c) ++ sendByte i ++ data.flatMap sendByte

/-- A read of `k` bytes after its address byte: ACK all but the last (R66, R74). -/
def takeBytes (k : Nat) : List Request := (List.replicate (k - 1) (takeByte 0#1)).flatten ++ takeByte 1#1

/-- `SET_OFFSET(i)` (R74). -/
def setOffset (c : Config) (i : Byte) : List Request := [.start] ++ writeFrame c i [] ++ [.stop]

/-- `WRITE_REGS(i; b0, ..., bk)` (R74). -/
def writeRegs (c : Config) (i : Byte) (data : List Byte) : List Request := [.start] ++ writeFrame c i data ++ [.stop]

/-- `READ(k)`, `k >= 1` (R74). -/
def readBytes (c : Config) (k : Nat) : List Request := [.start] ++ sendByte (readAddress c) ++ takeBytes k ++ [.stop]

/-- `READ_REGS(i; k)` (R74). -/
def readRegs (c : Config) (i : Byte) (k : Nat) : List Request := setOffset c i ++ [.checkStop] ++ readBytes c k

/-- `READ_REGS_RS(i; k)` (R74): with a repeated start and no stop in between. -/
def readRegsRepeated (c : Config) (i : Byte) (k : Nat) : List Request :=
  [.start] ++ writeFrame c i [] ++ readBytes c k

end Sys2Proof.Machine
end

