-- ==== Sys2Proof/Safety.lean ====
section
/-!
DEFINITION. What claims about the block are stated in: the invariants of R27 and R28 with the ranges of R14 and R17, the
direction table of R99, and what a run puts out.
-/

namespace Sys2Proof.Machine

/-- Between operations, from reset onward: the configuration is one of the block (R8), the register file is in its canonical
form (log 12), `Ptr < N` (R28), the counters are in their ranges (R14, R17), `Phase`, `BitCount` and `Dir` agree (R27), and
in `RegAddr` the pointer is the 0 that `P1.ADDR.WR` wrote (R93, R94). -/
structure State.Inv (s : State) : Prop where
  cfg_wf : s.cfg.wf
  regs_wf : Memory.wf s.cfg s.regs
  ptr_lt : s.ptr.toNat < s.cfg.n
  tally_le : s.tally ≤ tallyMax s.cfg
  bitCount_le : s.bitCount ≤ 8
  postAck_one : s.phase = .postAck → s.bitCount = 1
  disarmed_listens : s.bitCount = 0 → s.dir = .listening ∧ s.phase = .preAck
  regAddr_ptr : s.engineState = .regAddr → s.ptr = 0#8

/-- The direction in force during each unit (R99): in `AddrMatch` the block listens to an address byte or is disarmed; in
`RegAddr` and `MasterWrite` it listens to the master's byte and drives its own ACK; in `MasterRead` it drives the read byte,
and in the ack unit either drives its own address ACK or listens to the master's answer. -/
def State.FollowsLineTable (s : State) : Prop :=
  match s.engineState, s.phase with
  | .addrMatch, .preAck => s.dir = .listening
  | .addrMatch, .postAck => False
  | .regAddr, .preAck => s.dir = .listening ∧ s.armed
  | .regAddr, .postAck => s.dir = .driving ∧ s.shiftReg = 0#8
  | .masterWrite, .preAck => s.dir = .listening ∧ s.armed
  | .masterWrite, .postAck => s.dir = .driving ∧ s.shiftReg = 0#8
  | .masterRead, .preAck => s.dir = .driving ∧ s.armed
  | .masterRead, .postAck => s.dir = .listening ∨ s.dir = .driving ∧ s.shiftReg = 0#8

/-- The next request is a `CHECK_STOP` that would take its `StopFlag == 1` path while the block drives the line or counts an
ack unit: the executions R153 leaves out (R158). -/
def State.pollsMidTransaction (s : State) : Prop :=
  s.pending.head? = some .checkStop ∧ s.stopFlag = true ∧ (s.dir = .driving ∨ s.phase = .postAck)

/-- What the step from `s` to `t` adds to the output trace: the output of its operation (R7), and nothing where nothing was
requested. DESIGN CHOICE (log 19): the spec has no idle step; such a step is no operation and lists nothing. -/
def stepOutputs (s t : State) : List (Option Output) :=
  match s.pending with
  | [] => []
  | _ :: _ => [t.output]

/-- What the operations among the next `n` steps put out, oldest first (R7); it ends where the machine stops. An idle step
lists nothing, which is the model's choice (log 19). -/
def outputs : Nat → State → List (Option Output)
  | 0, _ => []
  | n + 1, s =>
    match step s with
    | .next t => stepOutputs s t ++ outputs n t
    | .fault _ => []
    | .refused _ => []

/-- `n` steps, ending where the machine stops; a step with nothing requested counts as one (log 6). -/
abbrev runSteps (n : Nat) (s : State) : Result := Sys2Proof.core.run n s

/-- The registers `regs[q], regs[(q+1) mod N], ...`, `k` of them (R104). -/
def State.regsFrom (s : State) (q : Nat) : Nat → List Byte
  | 0 => []
  | k + 1 => s.readReg q :: s.regsFrom ((q + 1) % s.cfg.n) k

end Sys2Proof.Machine
end

