-- ==== Sys2Proof/Certificates/Slice0/Obligations.lean ====
section
/-!
DEFINITION. The statements for the provers. Each docstring says what of the spec it formalises and which part, if any, is the
model's own choice. Where a record is updated in a conclusion, every field not named is unchanged: the statement is the
operation's result and its frame. `output := none` says that the operation has no output (R7; log 7).
-/

open Sys2Proof Sys2Proof.Machine

/-- The reset values of R30, in every configuration. `ShiftReg` is unspecified there and not mentioned (log 2). -/
def Obligations.ResetLeavesTheValuesOfTheSpec : Prop :=
  (∀ (c : Config), (∀ i, (State.resetOf c).readReg i = initAt c i) ∧ (State.resetOf c).cfg = c ∧
    (State.resetOf c).engineState = .addrMatch ∧ (State.resetOf c).ptr = 0#8 ∧ (State.resetOf c).tally = 0 ∧
    (State.resetOf c).phase = .preAck ∧ (State.resetOf c).bitCount = 8 ∧ (State.resetOf c).dir = .listening ∧
    (State.resetOf c).stopFlag = false)

/-- R150. The value of `ShiftReg` after `RESET` is a free value (log 3). `ConfigurationNeverChanges` says that the
requests of the environment survive. -/
def Obligations.ResetOperationRestoresEverything : Prop :=
  ∀ s : State, ∃ t, exec .reset s = .next t ∧ (∀ i, t.readReg i = initAt s.cfg i) ∧ t.engineState = .addrMatch ∧
    t.ptr = 0#8 ∧ t.tally = 0 ∧ t.stopFlag = false ∧ t.bitCount = 8 ∧ t.phase = .preAck ∧ t.dir = .listening ∧
    t.cfg = s.cfg

/-- R80: the four elements written, everything else (Ptr, Tally, regs, StopFlag, ShiftReg) unchanged, in any state of the
block. -/
def Obligations.StartRestartsTheSequencer : Prop :=
  ∀ s : State, exec .start s = .next { s with
    engineState := .addrMatch, bitCount := 8, phase := .preAck, dir := .listening, output := none }

/-- R81: `StopFlag` only; the engine does not react to a stop condition. -/
def Obligations.StopSetsOnlyTheStopFlag : Prop :=
  ∀ s : State, exec .stop s = .next { s with stopFlag := true, output := none }

/-- R82, with the wire value and the shift written as arithmetic. -/
def Obligations.BitShiftsTheWireValueIn : Prop :=
  ∀ (m w : Level) (s : State),
    w = (if s.dir = .driving ∧ s.shiftReg.toNat < 128 then 0#1 else m) →
    (s.bitCount = 0 → exec (.bit m) s = .next { s with output := some (.wire w) }) ∧
    (1 < s.bitCount → exec (.bit m) s = .next { s with
      output := some (.wire w), shiftReg := BitVec.ofNat 8 (2 * s.shiftReg.toNat % 256 + w.toNat),
      bitCount := s.bitCount - 1 }) ∧
    (s.Inv → s.bitCount = 0 → w = m) ∧
    (s.bitCount = 1 → exec (.bit m) s = overflowStep { s with
      output := some (.wire w), shiftReg := BitVec.ofNat 8 (2 * s.shiftReg.toNat % 256 + w.toNat), bitCount := 0 })

/-- R83, row by row, with the fields of the latched byte written as arithmetic on its value. The row `P1.DEF` has no state
value (R98). -/
def Obligations.OverflowSelectsTheTableRow : Prop :=
  ∀ s : State,
    (s.phase = .preAck →
      (s.engineState = .addrMatch →
        (s.shiftReg.toNat / 2 ≠ 0 ∧ s.shiftReg.toNat / 2 ≠ s.cfg.slaveAddr.toNat →
          overflowStep s = exec (.p1AddrNak (BitVec.ofNat 7 (s.shiftReg.toNat / 2)) (BitVec.ofNat 1 s.shiftReg.toNat)) s) ∧
        (s.shiftReg.toNat / 2 = 0 ∨ s.shiftReg.toNat / 2 = s.cfg.slaveAddr.toNat →
          (s.shiftReg.toNat % 2 = 1 →
            overflowStep s = exec (.p1AddrRd (BitVec.ofNat 7 (s.shiftReg.toNat / 2))) s) ∧
          (s.shiftReg.toNat % 2 = 0 →
            overflowStep s = exec (.p1AddrWr (BitVec.ofNat 7 (s.shiftReg.toNat / 2))) s))) ∧
      (s.engineState = .regAddr →
        (s.cfg.n ≤ s.shiftReg.toNat → overflowStep s = exec (.p1RegNak s.shiftReg) s) ∧
        (s.shiftReg.toNat < s.cfg.n → overflowStep s = exec (.p1RegAck s.shiftReg) s)) ∧
      (s.engineState = .masterWrite → overflowStep s = exec (.p1Wr s.shiftReg) s) ∧
      (s.engineState = .masterRead → overflowStep s = exec .p1Rd s)) ∧
    (s.phase = .postAck →
      (s.engineState = .masterRead →
        (s.shiftReg.toNat % 2 = 1 → overflowStep s = exec .p2RdNak s) ∧
        (s.shiftReg.toNat % 2 = 0 → overflowStep s = exec .p2RdAck s)) ∧
      (s.engineState ≠ .masterRead → overflowStep s = exec .p2Other s)) ∧
    (∀ t, overflowStep s = .next t → (t.bitCount = 8 ∧ t.phase = .preAck) ∨ (t.bitCount = 1 ∧ t.phase = .postAck) ∨
      (t.bitCount = 0 ∧ t.phase = .preAck ∧ t.dir = .listening))

/-- Every input in every state has a defined next state (60_exceptions section 1); an inference over R82 and R83 under the
invariant. -/
def Obligations.EveryBitCompletes : Prop :=
  ∀ (m : Level) (s : State), s.Inv → ∃ t, exec (.bit m) s = .next t ∧
    t.output = some (.wire (if s.dir = .driving ∧ s.shiftReg.toNat < 128 then 0#1 else m))

/-- How a step reaches the statements about `exec`. The list of requests, the idle step and the guard on the configuration
are the model's (log 5, 6, 15). -/
def Obligations.StepRunsTheRequestedOperation : Prop :=
  ∀ (s : State) (rest : List Request),
    (∀ r, s.pending = r :: rest → s.cfg.wf →
      step s = exec (selectRequest s.stopFlag r) { s with pending := rest }) ∧
    (∀ r, s.pending = r :: rest → ¬ s.cfg.wf → step s = .refused .badConfiguration) ∧
    (s.pending = [] → step s = .next s) ∧
    selectRequest true .checkStop = .checkStopDone ∧ selectRequest false .checkStop = .checkStopIdle ∧
    selectRequest s.stopFlag .start = .start ∧ selectRequest s.stopFlag .stop = .stop ∧
    (∀ m, selectRequest s.stopFlag (.bit m) = .bit m) ∧ (∀ i, selectRequest s.stopFlag (.regRead i) = .regRead i) ∧
    (∀ i v, selectRequest s.stopFlag (.regWriteRaw i v) = .regWriteRaw i v) ∧
    (∀ i, selectRequest s.stopFlag (.maskRead i) = .maskRead i) ∧
    selectRequest s.stopFlag .init = .init ∧ selectRequest s.stopFlag .reset = .reset

/-- The per-row statements reach a `BIT` through this one (R67, R83). -/
def Obligations.OverflowRunsTheDecodedStep : Prop :=
  ∀ s : State, overflowStep s = exec (decodeStep s.cfg s.phase s.engineState s.shiftReg).toInstr s

/-- R68, as arithmetic on the value of the byte. -/
def Obligations.FieldsOfTheLatchedByte : Prop :=
  ∀ b : Byte, (addrOf b).toNat = b.toNat / 2 ∧ (rwOf b).toNat = b.toNat % 2 ∧ (offsetOf b).toNat = b.toNat ∧
    (dataOf b).toNat = b.toNat ∧ (ackBitOf b).toNat = b.toNat % 2

/-- R69: address 0 is accepted by every device, for reads as well as writes (U6). -/
def Obligations.AddressZeroAlwaysMatches : Prop :=
  ∀ (c : Config) (b : Byte),
    (addrMatches c (addrOf b) = true ↔ b.toNat / 2 = 0 ∨ b.toNat / 2 = c.slaveAddr.toNat) ∧
    decodeStep c .preAck .addrMatch 0x00#8 = .addrWr 0#7 ∧ decodeStep c .preAck .addrMatch 0x01#8 = .addrRd 0#7 ∧
    decodeStep c .preAck .addrMatch (addressByte c.slaveAddr 0#1) = .addrWr c.slaveAddr ∧
    decodeStep c .preAck .addrMatch (addressByte c.slaveAddr 1#1) = .addrRd c.slaveAddr

/-- The count that 30_encoding section 3 infers from the matcher. -/
def Obligations.AddressBytesPartition : Prop :=
  ∀ c : Config, ((List.range 256).filter fun v =>
      match decodeStep c .preAck .addrMatch (BitVec.ofNat 8 v) with
      | .addrNak _ _ => true
      | _ => false).length = if c.slaveAddr = 0#7 then 254 else 252

/-- Round trip over the rows with an encoding (R75): no operand bit is dropped. -/
def Obligations.DecodeOfEncodeIsTheOperation : Prop :=
  ∀ (c : Config) (i : Instr) (ph : Phase) (st : EngineState) (b : Byte),
    i.wf c = true → i.selectedIn ph st = true → encode i = some b → (decodeStep c ph st b).toInstr = i

/-- The selectors are exhaustive and mutually exclusive (30_encoding section 3). -/
def Obligations.DecodedOperationIsTheOnlyOneSelected : Prop :=
  ∀ (c : Config) (ph : Phase) (st : EngineState) (b : Byte),
    (decodeStep c ph st b).toInstr.wf c = true ∧ (decodeStep c ph st b).toInstr.selectedIn ph st = true ∧
    (∃ b', encode (decodeStep c ph st b).toInstr = some b' ∧ decodeStep c ph st b' = decodeStep c ph st b ∧
      (ph = .preAck → st ≠ .masterRead → b' = b) ∧ (ph = .postAck → st = .masterRead → b'.toNat % 2 = b.toNat % 2)) ∧
    (∀ i, i.wf c = true → i.selectedIn ph st = true → encode i = some b → i = (decodeStep c ph st b).toInstr)

/-- R98 and the encoding of R12. -/
def Obligations.NoStateValueSelectsTheDefensiveRow : Prop :=
  (∀ s : State, exec .p1Def s = .next { s with dir := .listening, bitCount := 0, phase := .preAck }) ∧
  (∀ v : BitVec 2, ∃ st : EngineState, st.code = v) ∧
  (∀ (c : Config) (ph : Phase) (st : EngineState) (b : Byte), decodeStep c ph st b ≠ .defensive)

/-- A sanity statement: words of each family, bit by bit, in the order of the vectors. -/
def Obligations.WrittenWordsDecode : Prop :=
  decodeStep Config.reference .preAck .addrMatch 0b01100000#8 = .addrWr 0b0110000#7 ∧
  decodeStep Config.reference .preAck .addrMatch 0b01100001#8 = .addrRd 0b0110000#7 ∧
  decodeStep Config.reference .preAck .addrMatch 0b00000000#8 = .addrWr 0b0000000#7 ∧
  decodeStep Config.reference .preAck .addrMatch 0b00000001#8 = .addrRd 0b0000000#7 ∧
  decodeStep Config.reference .preAck .addrMatch 0b01100010#8 = .addrNak 0b0110001#7 0#1 ∧
  decodeStep Config.reference .preAck .addrMatch 0b01011111#8 = .addrNak 0b0101111#7 1#1 ∧
  decodeStep Config.reference .preAck .addrMatch 0b00000010#8 = .addrNak 0b0000001#7 0#1 ∧
  decodeStep Config.reference .preAck .addrMatch 0b11111111#8 = .addrNak 0b1111111#7 1#1 ∧
  decodeStep Config.reference .preAck .addrMatch 0b11100000#8 = .addrNak 0b1110000#7 0#1 ∧
  decodeStep { Config.reference with slaveAddr := 0#7 } .preAck .addrMatch 0b00000000#8 = .addrWr 0b0000000#7 ∧
  decodeStep Config.reference .preAck .regAddr 0b00000000#8 = .regAck 0x00#8 ∧
  decodeStep Config.reference .preAck .regAddr 0b00000111#8 = .regAck 0x07#8 ∧
  decodeStep Config.reference .preAck .regAddr 0b00000010#8 = .regAck 0x02#8 ∧
  decodeStep Config.reference .preAck .regAddr 0b00001000#8 = .regNak 0x08#8 ∧
  decodeStep Config.reference .preAck .regAddr 0b11111111#8 = .regNak 0xFF#8 ∧
  decodeStep Config.reference .preAck .regAddr 0b10000000#8 = .regNak 0x80#8 ∧
  decodeStep { Config.reference with n := 1, mask := [0xFF#8], initRegs := [0#8] } .preAck .regAddr 0b00000000#8 = .regAck 0x00#8 ∧
  decodeStep { Config.reference with n := 1, mask := [0xFF#8], initRegs := [0#8] } .preAck .regAddr 0b00000001#8 = .regNak 0x01#8 ∧
  decodeStep { Config.reference with n := 256, mask := List.replicate 256 0xFF#8, initRegs := List.replicate 256 0#8 }
    .preAck .regAddr 0b11111111#8 = .regAck 0xFF#8 ∧
  decodeStep Config.reference .preAck .masterWrite 0b01010101#8 = .wr 0x55#8 ∧
  decodeStep Config.reference .preAck .masterRead 0b10100101#8 = .rd ∧
  decodeStep Config.reference .postAck .masterRead 0b01111111#8 = .rdNak ∧
  decodeStep Config.reference .postAck .masterRead 0b11111110#8 = .rdAck ∧
  decodeStep Config.reference .postAck .regAddr 0b00000000#8 = .other ∧
  decodeStep Config.reference .postAck .regAddr 0b00000001#8 = .other

/-- R91. -/
def Obligations.AddressMismatchIsNaked : Prop :=
  (∀ (a : Addr7) (rw : Level) (s : State), exec (.p1AddrNak a rw) s = .next { s with
    dir := .listening, bitCount := 0, phase := .preAck, engineState := .addrMatch }) ∧
  (∀ s : State, s.phase = .preAck → s.engineState = .addrMatch → s.shiftReg.toNat / 2 ≠ 0 →
    s.shiftReg.toNat / 2 ≠ s.cfg.slaveAddr.toNat → overflowStep s = .next { s with
      dir := .listening, bitCount := 0, phase := .preAck, engineState := .addrMatch })

/-- R92. -/
def Obligations.AddressMatchReadIsAcked : Prop :=
  (∀ (a : Addr7) (s : State), exec (.p1AddrRd a) s = .next { s with
    shiftReg := 0#8, dir := .driving, bitCount := 1, phase := .postAck, engineState := .masterRead }) ∧
  (∀ s : State, s.phase = .preAck → s.engineState = .addrMatch →
    (s.shiftReg.toNat / 2 = 0 ∨ s.shiftReg.toNat / 2 = s.cfg.slaveAddr.toNat) → s.shiftReg.toNat % 2 = 1 →
    overflowStep s = .next { s with
      shiftReg := 0#8, dir := .driving, bitCount := 1, phase := .postAck, engineState := .masterRead })

/-- R93. -/
def Obligations.AddressMatchWriteIsAcked : Prop :=
  (∀ (a : Addr7) (s : State), exec (.p1AddrWr a) s = .next { s with
    shiftReg := 0#8, dir := .driving, bitCount := 1, phase := .postAck, ptr := 0#8, engineState := .regAddr }) ∧
  (∀ s : State, s.phase = .preAck → s.engineState = .addrMatch →
    (s.shiftReg.toNat / 2 = 0 ∨ s.shiftReg.toNat / 2 = s.cfg.slaveAddr.toNat) → s.shiftReg.toNat % 2 = 0 →
    overflowStep s = .next { s with
      shiftReg := 0#8, dir := .driving, bitCount := 1, phase := .postAck, ptr := 0#8, engineState := .regAddr })

/-- R94. That `Ptr` is 0 in `RegAddr` is part of the invariant. -/
def Obligations.OffsetOutOfRangeIsNaked : Prop :=
  (∀ (o : Byte) (s : State), exec (.p1RegNak o) s = .next { s with
    dir := .listening, bitCount := 0, phase := .preAck, engineState := .addrMatch }) ∧
  (∀ s : State, s.phase = .preAck → s.engineState = .regAddr → s.cfg.n ≤ s.shiftReg.toNat →
    overflowStep s = .next { s with
      dir := .listening, bitCount := 0, phase := .preAck, engineState := .addrMatch }) ∧
  (∀ s : State, s.Inv → s.engineState = .regAddr → s.ptr = 0#8) ∧
  (∀ s : State, s.cfg.n = 256 → s.shiftReg.toNat < s.cfg.n)

/-- R95. -/
def Obligations.OffsetInRangeLoadsThePointer : Prop :=
  (∀ (o : Byte) (s : State), exec (.p1RegAck o) s = .next { s with
    ptr := o, shiftReg := 0#8, dir := .driving, bitCount := 1, phase := .postAck, engineState := .masterWrite }) ∧
  (∀ s : State, s.phase = .preAck → s.engineState = .regAddr → s.shiftReg.toNat < s.cfg.n →
    overflowStep s = .next { s with
      ptr := s.shiftReg, shiftReg := 0#8, dir := .driving, bitCount := 1, phase := .postAck,
      engineState := .masterWrite })

/-- R96, in every state of the invariant (the register file in its canonical form, `Ptr < N`). -/
def Obligations.MasterWriteIsMasked : Prop :=
  (∀ (d : Byte) (s : State), s.Inv → ∃ t, exec (.p1Wr d) s = .next t ∧
    (maskAt s.cfg s.ptr.toNat ≠ 0#8 →
      (∀ k, k < 8 → (t.readReg s.ptr.toNat).getLsbD k =
        if (maskAt s.cfg s.ptr.toNat).getLsbD k then d.getLsbD k else (s.readReg s.ptr.toNat).getLsbD k) ∧
      t.tally = min (s.tally + 1) (2 ^ s.cfg.tallyW - 1)) ∧
    (maskAt s.cfg s.ptr.toNat = 0#8 → t.regs = s.regs ∧ t.tally = s.tally) ∧
    (∀ j, j ≠ s.ptr.toNat → t.readReg j = s.readReg j) ∧
    t.ptr.toNat = (s.ptr.toNat + 1) % s.cfg.n ∧
    t = { s with regs := t.regs, tally := t.tally, ptr := t.ptr, shiftReg := 0#8, dir := .driving, bitCount := 1, phase := .postAck, engineState := .masterWrite }) ∧
  (∀ s : State, s.phase = .preAck → s.engineState = .masterWrite → overflowStep s = exec (.p1Wr s.shiftReg) s)

/-- R97. -/
def Obligations.ReadByteReleasesTheLine : Prop :=
  (∀ s : State, exec .p1Rd s = .next { s with dir := .listening, bitCount := 1, phase := .postAck }) ∧
  (∀ s : State, s.phase = .preAck → s.engineState = .masterRead →
    overflowStep s = .next { s with dir := .listening, bitCount := 1, phase := .postAck })

/-- R90. -/
def Obligations.AckPullsLowAndNakReleases : Prop :=
  ∀ (m : Level) (s : State),
    s.driveAck = { s with shiftReg := 0#8, dir := .driving, bitCount := 1, phase := .postAck } ∧
    s.release = { s with dir := .listening, bitCount := 0, phase := .preAck } ∧ s.driveNak = s.release ∧
    s.armData = { s with bitCount := 8, phase := .preAck } ∧ s.armAck = { s with bitCount := 1, phase := .postAck } ∧
    s.listenData = { s with dir := .listening, bitCount := 8, phase := .preAck } ∧
    s.listenAck = { s with dir := .listening, bitCount := 1, phase := .postAck } ∧
    s.driveAck.wireLevel m = 0#1 ∧ s.driveNak.wireLevel m = m ∧
    exec (.bit m) s.driveNak = .next { s.driveNak with output := some (.wire m) }

/-- R100. -/
def Obligations.MasterNakEndsTheRead : Prop :=
  (∀ s : State, exec .p2RdNak s = .next { s with
    ptr := 0#8, engineState := .addrMatch, dir := .listening, bitCount := 0, phase := .preAck }) ∧
  (∀ s : State, s.phase = .postAck → s.engineState = .masterRead → s.shiftReg.toNat % 2 = 1 →
    overflowStep s = .next { s with
      ptr := 0#8, engineState := .addrMatch, dir := .listening, bitCount := 0, phase := .preAck })

/-- R101, under the invariant `Ptr < N` (R28). -/
def Obligations.MasterAckLoadsTheNextByte : Prop :=
  ∀ s : State, s.ptr.toNat < s.cfg.n →
    exec .p2RdAck s = .next { s with
      shiftReg := s.readReg s.ptr.toNat, ptr := BitVec.ofNat 8 ((s.ptr.toNat + 1) % s.cfg.n), dir := .driving,
      bitCount := 8, phase := .preAck, engineState := .masterRead } ∧
    (s.phase = .postAck → s.engineState = .masterRead → s.shiftReg.toNat % 2 = 0 →
      overflowStep s = .next { s with
        shiftReg := s.readReg s.ptr.toNat, ptr := BitVec.ofNat 8 ((s.ptr.toNat + 1) % s.cfg.n), dir := .driving,
        bitCount := 8, phase := .preAck })

/-- R102. -/
def Obligations.OtherAckUnitsListenForTheNextByte : Prop :=
  (∀ s : State, exec .p2Other s = .next { s with dir := .listening, bitCount := 8, phase := .preAck }) ∧
  (∀ s : State, s.phase = .postAck → s.engineState ≠ .masterRead →
    overflowStep s = .next { s with dir := .listening, bitCount := 8, phase := .preAck })

/-- The model's choice for states no run reaches (log 8): an out-of-range pointer must never be dereferenced. -/
def Obligations.PointerOutsideTheFileIsNeverDereferenced : Prop :=
  ∀ (d : Byte) (s : State), s.cfg.n ≤ s.ptr.toNat →
    exec (.p1Wr d) s = .fault (.pointerOutOfRange s.ptr) ∧ exec .p2RdAck s = .fault (.pointerOutOfRange s.ptr)

/-- R110. -/
def Obligations.HostReadReturnsTheRegister : Prop :=
  ∀ (i : Nat) (s : State), i < s.cfg.n → exec (.regRead i) s = .next { s with output := some (.byte (s.readReg i)) }

/-- R111, in every state of the invariant. -/
def Obligations.HostWriteIgnoresTheMask : Prop :=
  ∀ (i : Nat) (v : Byte) (s : State), s.Inv → i < s.cfg.n → ∃ t, exec (.regWriteRaw i v) s = .next t ∧
    t.readReg i = v ∧ (∀ j, j ≠ i → t.readReg j = s.readReg j) ∧ t = { s with regs := t.regs, output := none }

/-- R112. -/
def Obligations.HostReadsTheMask : Prop :=
  (∀ (i : Nat) (s : State), i < s.cfg.n →
    exec (.maskRead i) s = .next { s with output := some (.byte (s.cfg.mask.getD i 0#8)) }) ∧
  (∀ (op : Instr) (s t : State), exec op s = .next t → t.cfg.mask = s.cfg.mask)

/-- R113. -/
def Obligations.HostIndexOutOfRangeIsRefused : Prop :=
  ∀ (i : Nat) (v : Byte) (s : State), s.cfg.n ≤ i →
    exec (.regRead i) s = .refused (.indexOutOfRange i) ∧ exec (.regWriteRaw i v) s = .refused (.indexOutOfRange i) ∧
    exec (.maskRead i) s = .refused (.indexOutOfRange i)

/-- R114. -/
def Obligations.MaskedWritePrimitiveActsBitByBit : Prop :=
  ∀ (i : Nat) (b : Byte) (s : State), s.Inv → i < s.cfg.n →
    (∀ k, k < 8 → ((s.writeMasked i b).readReg i).getLsbD k =
      if (maskAt s.cfg i).getLsbD k then b.getLsbD k else (s.readReg i).getLsbD k) ∧
    (∀ j, j ≠ i → (s.writeMasked i b).readReg j = s.readReg j) ∧
    s.writeMasked i b = { s with regs := (s.writeMasked i b).regs } ∧
    (maskAt s.cfg i = 0xFF#8 → (s.writeMasked i b).readReg i = b) ∧
    (maskAt s.cfg i = 0x00#8 → (s.writeMasked i b).readReg i = s.readReg i)

/-- R120. -/
def Obligations.CheckStopIdleReturnsZero : Prop :=
  ∀ s : State, exec .checkStopIdle s = .next { s with output := some (.count 0) } ∧
    (s.stopFlag = false → exec (selectRequest s.stopFlag .checkStop) s = .next { s with output := some (.count 0) })

/-- R121, C1. -/
def Obligations.CheckStopDoneReportsAndResets : Prop :=
  ∀ s : State, exec .checkStopDone s = .next { s with
      stopFlag := false, engineState := .addrMatch, ptr := if s.tally = 0 then s.ptr else 0#8, tally := 0,
      output := some (.count s.tally) } ∧
    (s.stopFlag = true → exec (selectRequest s.stopFlag .checkStop) s = exec .checkStopDone s)

/-- R123. -/
def Obligations.InitIsIdempotentAndEqualsStart : Prop :=
  ∀ s : State, exec .init s = .next { s with
      engineState := .addrMatch, bitCount := 8, phase := .preAck, dir := .listening, output := none } ∧
    exec .init s = exec .start s ∧ (∀ t, exec .init s = .next t → exec .init t = .next t) ∧
    (∀ t, exec .reset s = .next t → exec .init t = .next t)

/-- The other half of `EveryStepKeepsTheInvariant`. That `State.reset` is the reference configuration's is the model's
choice (log 1). -/
def Obligations.InvariantHoldsAtReset : Prop :=
  (∀ c : Config, c.wf → (State.resetOf c).Inv) ∧ State.reset = State.resetOf Config.reference ∧ State.reset.Inv

/-- 10_state section 7, which the spec marks as derived, from every state and not only from reset. -/
def Obligations.EveryStepKeepsTheInvariant : Prop :=
  ∀ s t : State, s.Inv → step s = .next t → t.Inv

/-- Of R130, that every input in every state has a defined next state and that the only thing a model refuses is a host
index out of range; under the invariant. -/
def Obligations.OnlyAHostIndexOutOfRangeStopsTheBlock : Prop :=
  ∀ s : State, s.Inv → (∃ t, step s = .next t) ∨
    ∃ i rest, s.cfg.n ≤ i ∧ step s = .refused (.indexOutOfRange i) ∧
      (s.pending = .regRead i :: rest ∨ (∃ v, s.pending = .regWriteRaw i v :: rest) ∨ s.pending = .maskRead i :: rest)

/-- No operation writes a mask and reset does not change it (R11); the configuration stands in the state by the model's
choice (log 1). That `exec` leaves the requests still pending alone, `RESET` too, is no rule of the spec but the
model's choice (log 5). -/
def Obligations.ConfigurationNeverChanges : Prop :=
  ∀ (i : Instr) (s t : State), exec i s = .next t → t.cfg = s.cfg ∧ t.pending = s.pending

/-- The other half of `EveryStepKeepsTheLineTable`. -/
def Obligations.LineTableHoldsAtReset : Prop :=
  ∀ c : Config, (State.resetOf c).FollowsLineTable

/-- The table of 41_overflow_phase1 section 7 and the executions that 70_reset_and_hazards section 3 leaves out; the spec
marks both as derived. -/
def Obligations.EveryStepKeepsTheLineTable : Prop :=
  ∀ s t : State, s.Inv → s.FollowsLineTable → ¬ s.pollsMidTransaction → step s = .next t → t.FollowsLineTable

/-- R18's output and the two cases (i) and (ii) of 70_reset_and_hazards section 3. -/
def Obligations.LineIsPulledLowOnlyToAckOrSendAZero : Prop :=
  ∀ s : State, (s.contribution = 0#1 ↔ s.dir = .driving ∧ s.shiftReg.toNat < 128) ∧
    (s.FollowsLineTable → s.contribution = 0#1 →
      (s.phase = .postAck ∧ s.shiftReg = 0#8 ∧ s.engineState ≠ .addrMatch) ∨
      (s.phase = .preAck ∧ s.engineState = .masterRead))

/-- The row `regs[i]` of the table in 10_state section 5, which the spec marks as derived. -/
def Obligations.RegistersChangeOnlyByTheirThreeWriters : Prop :=
  ∀ (s t : State) (j : Nat), step s = .next t → t.readReg j ≠ s.readReg j →
    s.pending.head? = some .reset ∨ (∃ v, s.pending.head? = some (.regWriteRaw j v)) ∨
    ((∃ m, s.pending.head? = some (.bit m)) ∧ s.bitCount = 1 ∧ s.phase = .preAck ∧ s.engineState = .masterWrite ∧
      s.ptr.toNat = j ∧ maskAt s.cfg j ≠ 0#8)

/-- The protection of 20_memory section 5, over every bus event. -/
def Obligations.BusNeverChangesAMaskedOffBit : Prop :=
  ∀ (s t : State) (j k : Nat) (m : Level), s.Inv → k < 8 → (maskAt s.cfg j).getLsbD k = false →
    exec .start s = .next t ∨ exec .stop s = .next t ∨ exec (.bit m) s = .next t →
    (t.readReg j).getLsbD k = (s.readReg j).getLsbD k

/-- R13 and the row `Ptr` of R20's table, over every step and every engine step. -/
def Obligations.PointerMovesOnlyByItsWriters : Prop :=
  ∀ s t : State, step s = .next t → t.ptr ≠ s.ptr →
    (s.pending.head? = some .reset ∧ t.ptr = 0#8) ∨
    (s.pending.head? = some .checkStop ∧ s.stopFlag = true ∧ s.tally ≠ 0 ∧ t.ptr = 0#8) ∨
    ∃ (m : Level) (e : EngineStep), s.pending.head? = some (.bit m) ∧ s.bitCount = 1 ∧
      decodeStep s.cfg s.phase s.engineState (shiftIn s.shiftReg (s.wireLevel m)) = e ∧
      ((∃ a, e = .addrWr a ∧ t.ptr = 0#8) ∨ (∃ o, e = .regAck o ∧ t.ptr = o) ∨
        (∃ d, e = .wr d ∧ t.ptr = BitVec.ofNat 8 ((s.ptr.toNat + 1) % s.cfg.n)) ∨
        (e = .rdAck ∧ t.ptr = BitVec.ofNat 8 ((s.ptr.toNat + 1) % s.cfg.n)) ∨ (e = .rdNak ∧ t.ptr = 0#8))

/-- R19: sticky, read and cleared by `CHECK_STOP` only, and set to 0 by reset. -/
def Obligations.StopFlagIsSticky : Prop :=
  ∀ s t : State, step s = .next t →
    (s.stopFlag = false → t.stopFlag = true → s.pending.head? = some .stop) ∧
    (s.stopFlag = true → t.stopFlag = false → s.pending.head? = some .checkStop ∨ s.pending.head? = some .reset)

/-- R14 and the row `Tally` of 10_state section 5. -/
def Obligations.TallyCountsAcceptedBytesOnly : Prop :=
  ∀ s t : State, s.Inv → step s = .next t →
    (s.tally < t.tally → (∃ m, s.pending.head? = some (.bit m)) ∧ s.bitCount = 1 ∧ s.phase = .preAck ∧
      s.engineState = .masterWrite ∧ maskAt s.cfg s.ptr.toNat ≠ 0#8 ∧ t.tally = s.tally + 1) ∧
    (t.tally < s.tally → t.tally = 0 ∧ (s.pending.head? = some .reset ∨
      s.pending.head? = some .checkStop ∧ s.stopFlag = true))

/-- R7: the foreground task never inspects engine state directly. -/
def Obligations.HostLearnsNothingOfTheEngine : Prop :=
  ∀ (s u t v : State) (r : Request), (∃ i, r = .regRead i) ∨ (∃ i, r = .maskRead i) ∨ r = .checkStop →
    u.cfg = s.cfg → u.regs = s.regs → u.tally = s.tally → u.stopFlag = s.stopFlag →
    exec (selectRequest s.stopFlag r) s = .next t → exec (selectRequest u.stopFlag r) u = .next v → v.output = t.output

/-- 60_exceptions section 5: the master cannot read the tally, and no engine step reads `StopFlag`. -/
def Obligations.BusLearnsNothingOfTallyAndStopFlag : Prop :=
  ∀ (s t : State) (m : Level) (a : Nat) (f : Bool), exec (.bit m) s = .next t →
    ∃ x, exec (.bit m) { s with tally := a, stopFlag := f } = .next { t with tally := x, stopFlag := f }

/-- What R16 infers about the unspecified reset value: it holds whatever value the model chose (log 2, 3). -/
def Obligations.ShiftRegBeforeTheFirstByteIsUnobservable : Prop :=
  ∀ (s : State) (x y : Byte) (ms : List Level) (rest : List Request), s.cfg.wf → s.dir = .listening → s.phase = .preAck →
    s.bitCount = 8 → ms.length = 8 →
    runSteps 8 { s with shiftReg := x, pending := ms.map .bit ++ rest } =
      runSteps 8 { s with shiftReg := y, pending := ms.map .bit ++ rest } ∧
    outputs 8 { s with shiftReg := x, pending := ms.map .bit ++ rest } =
      outputs 8 { s with shiftReg := y, pending := ms.map .bit ++ rest }

/-- The bit order of 20_memory section 2 for received bytes. -/
def Obligations.ByteIsReceivedMostSignificantBitFirst : Prop :=
  ∀ (s : State) (b : Byte) (rest : List Request), s.cfg.wf → s.dir = .listening → s.phase = .preAck → s.bitCount = 8 →
    runSteps 8 { s with pending := (wireBits b).map .bit ++ rest } =
      exec (decodeStep s.cfg .preAck s.engineState b).toInstr { s with
        shiftReg := b, bitCount := 0, pending := rest, output := some (.wire (bitOf b 0)) }

/-- The guarantee of 60_exceptions section 1 on address mismatch, for every continuation of the transaction up to the next
`START`. -/
def Obligations.ForeignTransactionChangesNothing : Prop :=
  ∀ (s : State) (b : Byte) (ms : List Level) (rest : List Request), s.cfg.wf → s.engineState = .addrMatch →
    s.dir = .listening → s.phase = .preAck → s.bitCount = 8 → b.toNat / 2 ≠ 0 → b.toNat / 2 ≠ s.cfg.slaveAddr.toNat →
    (∃ o, runSteps (8 + ms.length) { s with pending := (wireBits b ++ ms).map .bit ++ rest } =
      .next { s with shiftReg := b, bitCount := 0, pending := rest, output := o }) ∧
    outputs (8 + ms.length) { s with pending := (wireBits b ++ ms).map .bit ++ rest } =
      (wireBits b ++ ms).map fun m => some (.wire m)

/-- The guarantee of 60_exceptions section 1 on an out-of-range offset. -/
def Obligations.InvalidOffsetChangesNothing : Prop :=
  ∀ (s : State) (b : Byte) (ms : List Level) (rest : List Request), s.cfg.wf → s.engineState = .regAddr →
    s.dir = .listening → s.phase = .preAck → s.bitCount = 8 → s.cfg.n ≤ b.toNat →
    (∃ o, runSteps (8 + ms.length) { s with pending := (wireBits b ++ ms).map .bit ++ rest } =
      .next { s with engineState := .addrMatch, shiftReg := b, bitCount := 0, pending := rest, output := o }) ∧
    outputs (8 + ms.length) { s with pending := (wireBits b ++ ms).map .bit ++ rest } =
      (wireBits b ++ ms).map fun m => some (.wire m)

/-- What 42_overflow_phase2 infers about the first byte of a read. -/
def Obligations.FirstReadByteIsLoadedByTheOwnAck : Prop :=
  ∀ (s t : State) (a : Addr7) (m : Level), s.ptr.toNat < s.cfg.n → exec (.p1AddrRd a) s = .next t →
    exec (.bit m) t = .next { s with
      shiftReg := s.readReg s.ptr.toNat, ptr := BitVec.ofNat 8 ((s.ptr.toNat + 1) % s.cfg.n), dir := .driving,
      bitCount := 8, phase := .preAck, engineState := .masterRead, output := some (.wire 0#1) }

/-- What 42_overflow_phase2 infers about pointer movement over a whole read, and the full-file read of 20_memory section
5: reads are unmasked and in index order. -/
def Obligations.ReadReturnsRegistersInOrder : Prop :=
  ∀ (s : State) (k : Nat) (rest : List Request), s.Inv → s.engineState = .masterRead → s.phase = .postAck →
    s.dir = .driving → s.shiftReg = 0#8 →
    (∃ o, runSteps (1 + 9 * k) { s with pending := .bit 1#1 :: (List.replicate k (takeByte 0#1)).flatten ++ rest } =
      .next { s with
        ptr := BitVec.ofNat 8 ((s.ptr.toNat + k + 1) % s.cfg.n), phase := .preAck, bitCount := 8,
        shiftReg := s.readReg ((s.ptr.toNat + k) % s.cfg.n), pending := rest, output := o }) ∧
    outputs (1 + 9 * k) { s with pending := .bit 1#1 :: (List.replicate k (takeByte 0#1)).flatten ++ rest } =
      some (.wire 0#1) :: (s.regsFrom s.ptr.toNat k).flatMap (fun b => (wireBits b ++ [0#1]).map fun w => some (.wire w)) ∧
    (∃ o x, runSteps (1 + 9 * (k + 1)) { s with pending := .bit 1#1 :: takeBytes (k + 1) ++ rest } =
      .next { s with
        ptr := 0#8, engineState := .addrMatch, dir := .listening, phase := .preAck, bitCount := 0,
        shiftReg := x, pending := rest, output := o }) ∧
    outputs (1 + 9 * (k + 1)) { s with pending := .bit 1#1 :: takeBytes (k + 1) ++ rest } =
      some (.wire 0#1) :: (s.regsFrom s.ptr.toNat k).flatMap (fun b => (wireBits b ++ [0#1]).map fun w => some (.wire w)) ++
        (wireBits (s.readReg ((s.ptr.toNat + k) % s.cfg.n)) ++ [1#1]).map fun w => some (.wire w)

/-- The effect 30_encoding section 5 gives the composite, from any state. -/
def Obligations.SetOffsetMovesOnlyThePointer : Prop :=
  ∀ (s : State) (i : Byte) (rest : List Request), s.Inv → i.toNat < s.cfg.n →
    runSteps 20 { s with pending := setOffset s.cfg i ++ rest } = .next { s with
      engineState := .masterWrite, ptr := i, phase := .preAck, bitCount := 8, dir := .listening, shiftReg := 0#8,
      stopFlag := true, pending := rest, output := none } ∧
    outputs 20 { s with pending := setOffset s.cfg i ++ rest } =
      none :: ((wireBits (writeAddress s.cfg) ++ [0#1] ++ wireBits i ++ [0#1]).map fun w => some (.wire w)) ++ [none]

/-- Property (a) of 20_memory section 7, from any state. -/
def Obligations.WriteTransactionStoresTheMaskedByte : Prop :=
  ∀ (s : State) (i b : Byte) (rest : List Request), s.Inv → i.toNat < s.cfg.n →
    ∃ t, runSteps 29 { s with pending := writeRegs s.cfg i [b] ++ rest } = .next t ∧
    (∀ k, k < 8 → (t.readReg i.toNat).getLsbD k =
      if (maskAt s.cfg i.toNat).getLsbD k then b.getLsbD k else (s.readReg i.toNat).getLsbD k) ∧
    (∀ j, j ≠ i.toNat → t.readReg j = s.readReg j) ∧ t.ptr.toNat = (i.toNat + 1) % s.cfg.n ∧
    t.tally = (if maskAt s.cfg i.toNat = 0#8 then s.tally else min (s.tally + 1) (2 ^ s.cfg.tallyW - 1)) ∧
    t.stopFlag = true ∧ t.engineState = .masterWrite ∧ t.dir = .listening ∧ t.bitCount = 8 ∧ t.pending = rest ∧
    outputs 29 { s with pending := writeRegs s.cfg i [b] ++ rest } =
      none :: ((wireBits (writeAddress s.cfg) ++ [0#1] ++ wireBits i ++ [0#1] ++ wireBits b ++ [0#1]).map
        fun w => some (.wire w)) ++ [none]

/-- Case (d) of the stale stop flag in 70_reset_and_hazards section 3. -/
def Obligations.ChecksBetweenTheStepsOfAUnitFreeTheLine : Prop :=
  ∀ s t : State, exec .checkStopDone s = .next t → s.phase = .postAck →
    overflowStep t = exec .p2Other t ∧
    overflowStep t = .next { t with dir := .listening, bitCount := 8, phase := .preAck }
end

