-- ==== Sys2Proof/Laws/Arith.lean ====
section
/-!
SUPPORT. The laws of the block's arithmetic (R117): the pointer advance stays inside the register file, the tally stays
within its width, and the masked merge works bit by bit.
-/

namespace Sys2Proof.Machine

/-- R117 (b): the sum is formed without truncation and reduced, so the result is `p + 1` or, at the top, 0. -/
theorem nextIndex_toNat {n : Nat} {p : Byte} (hp : p.toNat < n) (hn : n ≤ 256) :
    (nextIndex n p).toNat = if p.toNat + 1 = n then 0 else p.toNat + 1 := by
  unfold nextIndex
  rw [BitVec.toNat_ofNat]
  split
  · rename_i h; simp [h]
  · rw [Nat.mod_eq_of_lt (a := p.toNat + 1) (by omega)]; omega

/-- R28: every increment re-enters `[0, N)`. -/
theorem nextIndex_lt {n : Nat} (p : Byte) (h0 : 0 < n) (hn : n ≤ 256) : (nextIndex n p).toNat < n := by
  unfold nextIndex
  have := Nat.mod_lt (p.toNat + 1) h0
  rw [BitVec.toNat_ofNat, Nat.mod_eq_of_lt (by omega)]
  exact this

theorem nextIndex_toNat_mod {n : Nat} (p : Byte) (h0 : 0 < n) (hn : n ≤ 256) :
    (nextIndex n p).toNat = (p.toNat + 1) % n := by
  unfold nextIndex
  have := Nat.mod_lt (p.toNat + 1) h0
  rw [BitVec.toNat_ofNat, Nat.mod_eq_of_lt (by omega)]

/-- R14: the tally saturates. -/
theorem countUp_le (c : Config) (t : Nat) : countUp c t ≤ tallyMax c := Nat.min_le_right _ _

/-- R114, bit by bit: mask 1 takes the master's bit, mask 0 keeps the old one. -/
theorem mergeMasked_bit (old mask new : Byte) (k : Nat) (hk : k < 8) :
    (mergeMasked old mask new).getLsbD k = if mask.getLsbD k then new.getLsbD k else old.getLsbD k := by
  unfold mergeMasked
  simp only [BitVec.getLsbD_or, BitVec.getLsbD_and, BitVec.getLsbD_not, hk, decide_true, Bool.true_and]
  cases mask.getLsbD k <;> simp

/-- R117 (e): the wire value becomes bit 0 and every other bit moves up one place. -/
theorem shiftIn_bit (s : Byte) (w : Level) (k : Nat) (hk : k < 8) :
    (shiftIn s w).getLsbD k = if k = 0 then w.getLsbD 0 else s.getLsbD (k - 1) := by
  unfold shiftIn
  rcases k with _ | k
  · simp
  · simp [hk, BitVec.getLsbD_eq_getElem (show k < 8 by omega)]

end Sys2Proof.Machine
end

