-- ==== Sys2Proof/Laws/Memory.lean ====
section
/-!
SUPPORT. The laws of the register file: a read after a write to the same index gives the value written, a write leaves
every other index alone (R10, R51), and a write keeps the canonical form (log 12).
-/

namespace Sys2Proof.Machine

variable {c : Config} {m : Memory} {i k : Nat} {v : Byte}

theorem Memory.read_of_unlisted (h : ∀ cell ∈ m, cell.1 ≠ i) : Memory.read c m i = initAt c i := by
  induction m with
  | nil => rfl
  | cons cell rest ih =>
    obtain ⟨j, b⟩ := cell
    have hj : j ≠ i := h (j, b) (by simp)
    simp only [Memory.read, if_neg hj]
    exact ih fun x hx => h x (by simp [hx])

/-- A write leaves every other index alone. -/
theorem Memory.read_write_other (h : k ≠ i) : Memory.read c (Memory.write c m i v) k = Memory.read c m k := by
  induction m with
  | nil => simp only [Memory.write]; split <;> simp [Memory.read, Ne.symm h]
  | cons cell rest ih =>
    obtain ⟨j, b⟩ := cell
    simp only [Memory.write]
    split
    · simp only [Memory.read, ih]
    · split
      · rename_i _ hji
        subst hji
        split <;> simp [Memory.read, Ne.symm h]
      · split <;> simp [Memory.read, Ne.symm h]

/-- A read after a write to the same index gives the value written. -/
theorem Memory.read_write_same (hm : m.Pairwise (fun x y => x.1 < y.1)) :
    Memory.read c (Memory.write c m i v) i = v := by
  induction m with
  | nil => simp only [Memory.write]; split <;> simp_all [Memory.read]
  | cons cell rest ih =>
    obtain ⟨j, b⟩ := cell
    rw [List.pairwise_cons] at hm
    obtain ⟨hj, hrest⟩ := hm
    simp only [Memory.write]
    split
    · rename_i hlt
      simp only [Memory.read, if_neg (Nat.ne_of_lt hlt), ih hrest]
    · split
      · rename_i _ hji
        subst hji
        split
        · rename_i hv
          rw [hv]
          exact Memory.read_of_unlisted fun x hx => Nat.ne_of_gt (hj x hx)
        · simp [Memory.read]
      · rename_i hnlt hne
        split
        · rename_i hv
          rw [hv]
          refine Memory.read_of_unlisted fun x hx => ?_
          rcases List.mem_cons.1 hx with rfl | hx
          · exact hne
          · have := hj x hx; simp only at this; omega
        · simp [Memory.read]

theorem Memory.mem_write {cell : Host.Cell} (h : cell ∈ Memory.write c m i v) :
    cell ∈ m ∨ cell = (i, v) ∧ v ≠ initAt c i := by
  induction m with
  | nil => simp only [Memory.write] at h; split at h <;> simp_all
  | cons d rest ih =>
    obtain ⟨j, b⟩ := d
    simp only [Memory.write] at h
    split at h
    · rcases List.mem_cons.1 h with rfl | h
      · simp
      · rcases ih h with h | h <;> simp [h]
    · split at h
      · split at h
        · simp [h]
        · rcases List.mem_cons.1 h with rfl | h <;> simp_all
      · split at h
        · exact Or.inl h
        · rcases List.mem_cons.1 h with rfl | h
          · simp_all
          · exact Or.inl h

/-- A write keeps the indices strictly rising. -/
theorem Memory.write_sorted (hm : m.Pairwise (fun x y => x.1 < y.1)) :
    (Memory.write c m i v).Pairwise (fun x y => x.1 < y.1) := by
  induction m with
  | nil => simp only [Memory.write]; split <;> simp
  | cons d rest ih =>
    obtain ⟨j, b⟩ := d
    have hm' := hm
    rw [List.pairwise_cons] at hm
    obtain ⟨hj, hrest⟩ := hm
    simp only [Memory.write]
    split
    · rename_i hlt
      rw [List.pairwise_cons]
      refine ⟨fun x hx => ?_, ih hrest⟩
      rcases Memory.mem_write hx with hx | ⟨rfl, _⟩
      · exact hj x hx
      · exact hlt
    · split
      · rename_i _ hji
        subst hji
        split
        · exact hrest
        · exact List.pairwise_cons.2 ⟨hj, hrest⟩
      · rename_i hnlt hne
        split
        · exact hm'
        · refine List.pairwise_cons.2 ⟨fun x hx => ?_, hm'⟩
          rcases List.mem_cons.1 hx with rfl | hx
          · simp only; omega
          · have := hj x hx; simp only at this ⊢; omega

/-- Every write inside the register file keeps the canonical form. -/
theorem Memory.write_wf (hm : Memory.wf c m) (hi : i < c.n) : Memory.wf c (Memory.write c m i v) := by
  obtain ⟨hs, hb, hd⟩ := hm
  refine ⟨Memory.write_sorted hs, fun x hx => ?_, fun x hx => ?_⟩
  · rcases Memory.mem_write hx with hx | ⟨rfl, _⟩
    · exact hb x hx
    · exact hi
  · rcases Memory.mem_write hx with hx | ⟨rfl, hv⟩
    · exact hd x hx
    · exact hv

/-- The register file after reset is in canonical form. -/
theorem Memory.nil_wf : Memory.wf c [] := by simp [Memory.wf]

/-- `regs[i]` after `regs[i] <- v`. -/
theorem State.readReg_writeReg_same {s : State} (h : Memory.wf s.cfg s.regs) : (s.writeReg i v).readReg i = v :=
  Memory.read_write_same h.1

/-- `regs[k]` after `regs[i] <- v`, for another index. -/
theorem State.readReg_writeReg_other {s : State} (h : k ≠ i) : (s.writeReg i v).readReg k = s.readReg k :=
  Memory.read_write_other h

end Sys2Proof.Machine
end

