-- ==== Sys2Proof/Laws/State.lean ====
section
/-!
SUPPORT. What each named update of the state leaves in each field: one lemma per field per update, so that no proof
unfolds a record update.
-/

namespace Sys2Proof.Machine

variable (s : State)

@[simp] theorem State.emit_cfg (o : Option Output) : (s.emit o).cfg = s.cfg := rfl
@[simp] theorem State.emit_regs (o : Option Output) : (s.emit o).regs = s.regs := rfl
@[simp] theorem State.emit_engineState (o : Option Output) : (s.emit o).engineState = s.engineState := rfl
@[simp] theorem State.emit_ptr (o : Option Output) : (s.emit o).ptr = s.ptr := rfl
@[simp] theorem State.emit_tally (o : Option Output) : (s.emit o).tally = s.tally := rfl
@[simp] theorem State.emit_phase (o : Option Output) : (s.emit o).phase = s.phase := rfl
@[simp] theorem State.emit_shiftReg (o : Option Output) : (s.emit o).shiftReg = s.shiftReg := rfl
@[simp] theorem State.emit_bitCount (o : Option Output) : (s.emit o).bitCount = s.bitCount := rfl
@[simp] theorem State.emit_dir (o : Option Output) : (s.emit o).dir = s.dir := rfl
@[simp] theorem State.emit_stopFlag (o : Option Output) : (s.emit o).stopFlag = s.stopFlag := rfl
@[simp] theorem State.emit_pending (o : Option Output) : (s.emit o).pending = s.pending := rfl
@[simp] theorem State.emit_output (o : Option Output) : (s.emit o).output = o := rfl
@[simp] theorem State.emit_freshCount (o : Option Output) : (s.emit o).freshCount = s.freshCount := rfl

@[simp] theorem State.armData_cfg : (s.armData).cfg = s.cfg := rfl
@[simp] theorem State.armData_regs : (s.armData).regs = s.regs := rfl
@[simp] theorem State.armData_engineState : (s.armData).engineState = s.engineState := rfl
@[simp] theorem State.armData_ptr : (s.armData).ptr = s.ptr := rfl
@[simp] theorem State.armData_tally : (s.armData).tally = s.tally := rfl
@[simp] theorem State.armData_phase : (s.armData).phase = .preAck := rfl
@[simp] theorem State.armData_shiftReg : (s.armData).shiftReg = s.shiftReg := rfl
@[simp] theorem State.armData_bitCount : (s.armData).bitCount = 8 := rfl
@[simp] theorem State.armData_dir : (s.armData).dir = s.dir := rfl
@[simp] theorem State.armData_stopFlag : (s.armData).stopFlag = s.stopFlag := rfl
@[simp] theorem State.armData_pending : (s.armData).pending = s.pending := rfl
@[simp] theorem State.armData_output : (s.armData).output = s.output := rfl
@[simp] theorem State.armData_freshCount : (s.armData).freshCount = s.freshCount := rfl

@[simp] theorem State.armAck_cfg : (s.armAck).cfg = s.cfg := rfl
@[simp] theorem State.armAck_regs : (s.armAck).regs = s.regs := rfl
@[simp] theorem State.armAck_engineState : (s.armAck).engineState = s.engineState := rfl
@[simp] theorem State.armAck_ptr : (s.armAck).ptr = s.ptr := rfl
@[simp] theorem State.armAck_tally : (s.armAck).tally = s.tally := rfl
@[simp] theorem State.armAck_phase : (s.armAck).phase = .postAck := rfl
@[simp] theorem State.armAck_shiftReg : (s.armAck).shiftReg = s.shiftReg := rfl
@[simp] theorem State.armAck_bitCount : (s.armAck).bitCount = 1 := rfl
@[simp] theorem State.armAck_dir : (s.armAck).dir = s.dir := rfl
@[simp] theorem State.armAck_stopFlag : (s.armAck).stopFlag = s.stopFlag := rfl
@[simp] theorem State.armAck_pending : (s.armAck).pending = s.pending := rfl
@[simp] theorem State.armAck_output : (s.armAck).output = s.output := rfl
@[simp] theorem State.armAck_freshCount : (s.armAck).freshCount = s.freshCount := rfl

@[simp] theorem State.listenData_cfg : (s.listenData).cfg = s.cfg := rfl
@[simp] theorem State.listenData_regs : (s.listenData).regs = s.regs := rfl
@[simp] theorem State.listenData_engineState : (s.listenData).engineState = s.engineState := rfl
@[simp] theorem State.listenData_ptr : (s.listenData).ptr = s.ptr := rfl
@[simp] theorem State.listenData_tally : (s.listenData).tally = s.tally := rfl
@[simp] theorem State.listenData_phase : (s.listenData).phase = .preAck := rfl
@[simp] theorem State.listenData_shiftReg : (s.listenData).shiftReg = s.shiftReg := rfl
@[simp] theorem State.listenData_bitCount : (s.listenData).bitCount = 8 := rfl
@[simp] theorem State.listenData_dir : (s.listenData).dir = .listening := rfl
@[simp] theorem State.listenData_stopFlag : (s.listenData).stopFlag = s.stopFlag := rfl
@[simp] theorem State.listenData_pending : (s.listenData).pending = s.pending := rfl
@[simp] theorem State.listenData_output : (s.listenData).output = s.output := rfl
@[simp] theorem State.listenData_freshCount : (s.listenData).freshCount = s.freshCount := rfl

@[simp] theorem State.listenAck_cfg : (s.listenAck).cfg = s.cfg := rfl
@[simp] theorem State.listenAck_regs : (s.listenAck).regs = s.regs := rfl
@[simp] theorem State.listenAck_engineState : (s.listenAck).engineState = s.engineState := rfl
@[simp] theorem State.listenAck_ptr : (s.listenAck).ptr = s.ptr := rfl
@[simp] theorem State.listenAck_tally : (s.listenAck).tally = s.tally := rfl
@[simp] theorem State.listenAck_phase : (s.listenAck).phase = .postAck := rfl
@[simp] theorem State.listenAck_shiftReg : (s.listenAck).shiftReg = s.shiftReg := rfl
@[simp] theorem State.listenAck_bitCount : (s.listenAck).bitCount = 1 := rfl
@[simp] theorem State.listenAck_dir : (s.listenAck).dir = .listening := rfl
@[simp] theorem State.listenAck_stopFlag : (s.listenAck).stopFlag = s.stopFlag := rfl
@[simp] theorem State.listenAck_pending : (s.listenAck).pending = s.pending := rfl
@[simp] theorem State.listenAck_output : (s.listenAck).output = s.output := rfl
@[simp] theorem State.listenAck_freshCount : (s.listenAck).freshCount = s.freshCount := rfl

@[simp] theorem State.driveAck_cfg : (s.driveAck).cfg = s.cfg := rfl
@[simp] theorem State.driveAck_regs : (s.driveAck).regs = s.regs := rfl
@[simp] theorem State.driveAck_engineState : (s.driveAck).engineState = s.engineState := rfl
@[simp] theorem State.driveAck_ptr : (s.driveAck).ptr = s.ptr := rfl
@[simp] theorem State.driveAck_tally : (s.driveAck).tally = s.tally := rfl
@[simp] theorem State.driveAck_phase : (s.driveAck).phase = .postAck := rfl
@[simp] theorem State.driveAck_shiftReg : (s.driveAck).shiftReg = 0x00#8 := rfl
@[simp] theorem State.driveAck_bitCount : (s.driveAck).bitCount = 1 := rfl
@[simp] theorem State.driveAck_dir : (s.driveAck).dir = .driving := rfl
@[simp] theorem State.driveAck_stopFlag : (s.driveAck).stopFlag = s.stopFlag := rfl
@[simp] theorem State.driveAck_pending : (s.driveAck).pending = s.pending := rfl
@[simp] theorem State.driveAck_output : (s.driveAck).output = s.output := rfl
@[simp] theorem State.driveAck_freshCount : (s.driveAck).freshCount = s.freshCount := rfl

@[simp] theorem State.release_cfg : (s.release).cfg = s.cfg := rfl
@[simp] theorem State.release_regs : (s.release).regs = s.regs := rfl
@[simp] theorem State.release_engineState : (s.release).engineState = s.engineState := rfl
@[simp] theorem State.release_ptr : (s.release).ptr = s.ptr := rfl
@[simp] theorem State.release_tally : (s.release).tally = s.tally := rfl
@[simp] theorem State.release_phase : (s.release).phase = .preAck := rfl
@[simp] theorem State.release_shiftReg : (s.release).shiftReg = s.shiftReg := rfl
@[simp] theorem State.release_bitCount : (s.release).bitCount = 0 := rfl
@[simp] theorem State.release_dir : (s.release).dir = .listening := rfl
@[simp] theorem State.release_stopFlag : (s.release).stopFlag = s.stopFlag := rfl
@[simp] theorem State.release_pending : (s.release).pending = s.pending := rfl
@[simp] theorem State.release_output : (s.release).output = s.output := rfl
@[simp] theorem State.release_freshCount : (s.release).freshCount = s.freshCount := rfl

@[simp] theorem State.driveNak_cfg : (s.driveNak).cfg = s.cfg := rfl
@[simp] theorem State.driveNak_regs : (s.driveNak).regs = s.regs := rfl
@[simp] theorem State.driveNak_engineState : (s.driveNak).engineState = s.engineState := rfl
@[simp] theorem State.driveNak_ptr : (s.driveNak).ptr = s.ptr := rfl
@[simp] theorem State.driveNak_tally : (s.driveNak).tally = s.tally := rfl
@[simp] theorem State.driveNak_phase : (s.driveNak).phase = .preAck := rfl
@[simp] theorem State.driveNak_shiftReg : (s.driveNak).shiftReg = s.shiftReg := rfl
@[simp] theorem State.driveNak_bitCount : (s.driveNak).bitCount = 0 := rfl
@[simp] theorem State.driveNak_dir : (s.driveNak).dir = .listening := rfl
@[simp] theorem State.driveNak_stopFlag : (s.driveNak).stopFlag = s.stopFlag := rfl
@[simp] theorem State.driveNak_pending : (s.driveNak).pending = s.pending := rfl
@[simp] theorem State.driveNak_output : (s.driveNak).output = s.output := rfl
@[simp] theorem State.driveNak_freshCount : (s.driveNak).freshCount = s.freshCount := rfl

@[simp] theorem State.awaitAddress_cfg : (s.awaitAddress).cfg = s.cfg := rfl
@[simp] theorem State.awaitAddress_regs : (s.awaitAddress).regs = s.regs := rfl
@[simp] theorem State.awaitAddress_engineState : (s.awaitAddress).engineState = .addrMatch := rfl
@[simp] theorem State.awaitAddress_ptr : (s.awaitAddress).ptr = s.ptr := rfl
@[simp] theorem State.awaitAddress_tally : (s.awaitAddress).tally = s.tally := rfl
@[simp] theorem State.awaitAddress_phase : (s.awaitAddress).phase = .preAck := rfl
@[simp] theorem State.awaitAddress_shiftReg : (s.awaitAddress).shiftReg = s.shiftReg := rfl
@[simp] theorem State.awaitAddress_bitCount : (s.awaitAddress).bitCount = 8 := rfl
@[simp] theorem State.awaitAddress_dir : (s.awaitAddress).dir = .listening := rfl
@[simp] theorem State.awaitAddress_stopFlag : (s.awaitAddress).stopFlag = s.stopFlag := rfl
@[simp] theorem State.awaitAddress_pending : (s.awaitAddress).pending = s.pending := rfl
@[simp] theorem State.awaitAddress_output : (s.awaitAddress).output = s.output := rfl
@[simp] theorem State.awaitAddress_freshCount : (s.awaitAddress).freshCount = s.freshCount := rfl

@[simp] theorem State.advancePtr_cfg : (s.advancePtr).cfg = s.cfg := rfl
@[simp] theorem State.advancePtr_regs : (s.advancePtr).regs = s.regs := rfl
@[simp] theorem State.advancePtr_engineState : (s.advancePtr).engineState = s.engineState := rfl
@[simp] theorem State.advancePtr_ptr : (s.advancePtr).ptr = nextIndex s.cfg.n s.ptr := rfl
@[simp] theorem State.advancePtr_tally : (s.advancePtr).tally = s.tally := rfl
@[simp] theorem State.advancePtr_phase : (s.advancePtr).phase = s.phase := rfl
@[simp] theorem State.advancePtr_shiftReg : (s.advancePtr).shiftReg = s.shiftReg := rfl
@[simp] theorem State.advancePtr_bitCount : (s.advancePtr).bitCount = s.bitCount := rfl
@[simp] theorem State.advancePtr_dir : (s.advancePtr).dir = s.dir := rfl
@[simp] theorem State.advancePtr_stopFlag : (s.advancePtr).stopFlag = s.stopFlag := rfl
@[simp] theorem State.advancePtr_pending : (s.advancePtr).pending = s.pending := rfl
@[simp] theorem State.advancePtr_output : (s.advancePtr).output = s.output := rfl
@[simp] theorem State.advancePtr_freshCount : (s.advancePtr).freshCount = s.freshCount := rfl

@[simp] theorem State.countBit_cfg (w : Level) : (s.countBit w).cfg = s.cfg := rfl
@[simp] theorem State.countBit_regs (w : Level) : (s.countBit w).regs = s.regs := rfl
@[simp] theorem State.countBit_engineState (w : Level) : (s.countBit w).engineState = s.engineState := rfl
@[simp] theorem State.countBit_ptr (w : Level) : (s.countBit w).ptr = s.ptr := rfl
@[simp] theorem State.countBit_tally (w : Level) : (s.countBit w).tally = s.tally := rfl
@[simp] theorem State.countBit_phase (w : Level) : (s.countBit w).phase = s.phase := rfl
@[simp] theorem State.countBit_shiftReg (w : Level) : (s.countBit w).shiftReg = shiftIn s.shiftReg w := rfl
@[simp] theorem State.countBit_bitCount (w : Level) : (s.countBit w).bitCount = s.bitCount - 1 := rfl
@[simp] theorem State.countBit_dir (w : Level) : (s.countBit w).dir = s.dir := rfl
@[simp] theorem State.countBit_stopFlag (w : Level) : (s.countBit w).stopFlag = s.stopFlag := rfl
@[simp] theorem State.countBit_pending (w : Level) : (s.countBit w).pending = s.pending := rfl
@[simp] theorem State.countBit_output (w : Level) : (s.countBit w).output = s.output := rfl
@[simp] theorem State.countBit_freshCount (w : Level) : (s.countBit w).freshCount = s.freshCount := rfl

@[simp] theorem State.writeReg_cfg (i : Nat) (v : Byte) : (s.writeReg i v).cfg = s.cfg := rfl
@[simp] theorem State.writeReg_regs (i : Nat) (v : Byte) : (s.writeReg i v).regs = Memory.write s.cfg s.regs i v := rfl
@[simp] theorem State.writeReg_engineState (i : Nat) (v : Byte) : (s.writeReg i v).engineState = s.engineState := rfl
@[simp] theorem State.writeReg_ptr (i : Nat) (v : Byte) : (s.writeReg i v).ptr = s.ptr := rfl
@[simp] theorem State.writeReg_tally (i : Nat) (v : Byte) : (s.writeReg i v).tally = s.tally := rfl
@[simp] theorem State.writeReg_phase (i : Nat) (v : Byte) : (s.writeReg i v).phase = s.phase := rfl
@[simp] theorem State.writeReg_shiftReg (i : Nat) (v : Byte) : (s.writeReg i v).shiftReg = s.shiftReg := rfl
@[simp] theorem State.writeReg_bitCount (i : Nat) (v : Byte) : (s.writeReg i v).bitCount = s.bitCount := rfl
@[simp] theorem State.writeReg_dir (i : Nat) (v : Byte) : (s.writeReg i v).dir = s.dir := rfl
@[simp] theorem State.writeReg_stopFlag (i : Nat) (v : Byte) : (s.writeReg i v).stopFlag = s.stopFlag := rfl
@[simp] theorem State.writeReg_pending (i : Nat) (v : Byte) : (s.writeReg i v).pending = s.pending := rfl
@[simp] theorem State.writeReg_output (i : Nat) (v : Byte) : (s.writeReg i v).output = s.output := rfl
@[simp] theorem State.writeReg_freshCount (i : Nat) (v : Byte) : (s.writeReg i v).freshCount = s.freshCount := rfl

@[simp] theorem State.writeMasked_cfg (i : Nat) (b : Byte) : (s.writeMasked i b).cfg = s.cfg := rfl
@[simp] theorem State.writeMasked_regs (i : Nat) (b : Byte) : (s.writeMasked i b).regs = Memory.write s.cfg s.regs i (mergeMasked (s.readReg i) (maskAt s.cfg i) b) := rfl
@[simp] theorem State.writeMasked_engineState (i : Nat) (b : Byte) : (s.writeMasked i b).engineState = s.engineState := rfl
@[simp] theorem State.writeMasked_ptr (i : Nat) (b : Byte) : (s.writeMasked i b).ptr = s.ptr := rfl
@[simp] theorem State.writeMasked_tally (i : Nat) (b : Byte) : (s.writeMasked i b).tally = s.tally := rfl
@[simp] theorem State.writeMasked_phase (i : Nat) (b : Byte) : (s.writeMasked i b).phase = s.phase := rfl
@[simp] theorem State.writeMasked_shiftReg (i : Nat) (b : Byte) : (s.writeMasked i b).shiftReg = s.shiftReg := rfl
@[simp] theorem State.writeMasked_bitCount (i : Nat) (b : Byte) : (s.writeMasked i b).bitCount = s.bitCount := rfl
@[simp] theorem State.writeMasked_dir (i : Nat) (b : Byte) : (s.writeMasked i b).dir = s.dir := rfl
@[simp] theorem State.writeMasked_stopFlag (i : Nat) (b : Byte) : (s.writeMasked i b).stopFlag = s.stopFlag := rfl
@[simp] theorem State.writeMasked_pending (i : Nat) (b : Byte) : (s.writeMasked i b).pending = s.pending := rfl
@[simp] theorem State.writeMasked_output (i : Nat) (b : Byte) : (s.writeMasked i b).output = s.output := rfl
@[simp] theorem State.writeMasked_freshCount (i : Nat) (b : Byte) : (s.writeMasked i b).freshCount = s.freshCount := rfl

@[simp] theorem State.acceptByte_cfg (p : Nat) (b : Byte) : (s.acceptByte p b).cfg = s.cfg := by
  unfold State.acceptByte; split <;> rfl
@[simp] theorem State.acceptByte_engineState (p : Nat) (b : Byte) : (s.acceptByte p b).engineState = s.engineState := by
  unfold State.acceptByte; split <;> rfl
@[simp] theorem State.acceptByte_ptr (p : Nat) (b : Byte) : (s.acceptByte p b).ptr = s.ptr := by
  unfold State.acceptByte; split <;> rfl
@[simp] theorem State.acceptByte_phase (p : Nat) (b : Byte) : (s.acceptByte p b).phase = s.phase := by
  unfold State.acceptByte; split <;> rfl
@[simp] theorem State.acceptByte_shiftReg (p : Nat) (b : Byte) : (s.acceptByte p b).shiftReg = s.shiftReg := by
  unfold State.acceptByte; split <;> rfl
@[simp] theorem State.acceptByte_bitCount (p : Nat) (b : Byte) : (s.acceptByte p b).bitCount = s.bitCount := by
  unfold State.acceptByte; split <;> rfl
@[simp] theorem State.acceptByte_dir (p : Nat) (b : Byte) : (s.acceptByte p b).dir = s.dir := by
  unfold State.acceptByte; split <;> rfl
@[simp] theorem State.acceptByte_stopFlag (p : Nat) (b : Byte) : (s.acceptByte p b).stopFlag = s.stopFlag := by
  unfold State.acceptByte; split <;> rfl
@[simp] theorem State.acceptByte_pending (p : Nat) (b : Byte) : (s.acceptByte p b).pending = s.pending := by
  unfold State.acceptByte; split <;> rfl
@[simp] theorem State.acceptByte_output (p : Nat) (b : Byte) : (s.acceptByte p b).output = s.output := by
  unfold State.acceptByte; split <;> rfl
@[simp] theorem State.acceptByte_freshCount (p : Nat) (b : Byte) : (s.acceptByte p b).freshCount = s.freshCount := by
  unfold State.acceptByte; split <;> rfl

@[simp] theorem State.acceptByte_tally (p : Nat) (b : Byte) :
    (s.acceptByte p b).tally = if maskAt s.cfg p ≠ 0x00#8 then countUp s.cfg s.tally else s.tally := by
  unfold State.acceptByte; split <;> rfl

@[simp] theorem State.acceptByte_regs (p : Nat) (b : Byte) :
    (s.acceptByte p b).regs = if maskAt s.cfg p ≠ 0x00#8 then (s.writeMasked p b).regs else s.regs := by
  unfold State.acceptByte; split <;> rfl

end Sys2Proof.Machine
end

