-- ==== Sys2Proof/Laws/Step.lean ====
section
/-!
SUPPORT. What a step and each shared operation can do, said once: proofs cite these and unfold neither.
-/

namespace Sys2Proof.Machine

variable {s t : State}

/-! Each operation is its meaning. -/

@[simp] theorem exec_start : exec .start s = execStart s := rfl
@[simp] theorem exec_stop : exec .stop s = execStop s := rfl
@[simp] theorem exec_bit (m : Level) : exec (.bit m) s = execBit m s := rfl
@[simp] theorem exec_p1AddrNak (a : Addr7) (rw : Level) : exec (.p1AddrNak a rw) s = execP1AddrNak a rw s := rfl
@[simp] theorem exec_p1AddrRd (a : Addr7) : exec (.p1AddrRd a) s = execP1AddrRd a s := rfl
@[simp] theorem exec_p1AddrWr (a : Addr7) : exec (.p1AddrWr a) s = execP1AddrWr a s := rfl
@[simp] theorem exec_p1RegNak (o : Byte) : exec (.p1RegNak o) s = execP1RegNak o s := rfl
@[simp] theorem exec_p1RegAck (o : Byte) : exec (.p1RegAck o) s = execP1RegAck o s := rfl
@[simp] theorem exec_p1Wr (d : Byte) : exec (.p1Wr d) s = execP1Wr d s := rfl
@[simp] theorem exec_p1Rd : exec .p1Rd s = execP1Rd s := rfl
@[simp] theorem exec_p1Def : exec .p1Def s = execP1Def s := rfl
@[simp] theorem exec_p2RdNak : exec .p2RdNak s = execP2RdNak s := rfl
@[simp] theorem exec_p2RdAck : exec .p2RdAck s = execP2RdAck s := rfl
@[simp] theorem exec_p2Other : exec .p2Other s = execP2Other s := rfl
@[simp] theorem exec_regRead (i : Nat) : exec (.regRead i) s = execRegRead i s := rfl
@[simp] theorem exec_regWriteRaw (i : Nat) (v : Byte) : exec (.regWriteRaw i v) s = execRegWriteRaw i v s := rfl
@[simp] theorem exec_maskRead (i : Nat) : exec (.maskRead i) s = execMaskRead i s := rfl
@[simp] theorem exec_checkStopIdle : exec .checkStopIdle s = execCheckStopIdle s := rfl
@[simp] theorem exec_checkStopDone : exec .checkStopDone s = execCheckStopDone s := rfl
@[simp] theorem exec_init : exec .init s = execInit s := rfl
@[simp] theorem exec_reset : exec .reset s = execReset s := rfl

/-- The master's path answers a next state exactly when the pointer is inside the register file. -/
theorem atPointer_next {k : Nat → State} :
    s.atPointer k = .next t ↔ s.ptr.toNat < s.cfg.n ∧ t = k s.ptr.toNat := by
  unfold State.atPointer
  split
  · rename_i h; simp [h, eq_comm]
  · rename_i h; simp [h]

theorem atPointer_of_lt {k : Nat → State} (h : s.ptr.toNat < s.cfg.n) : s.atPointer k = .next (k s.ptr.toNat) :=
  if_pos h

/-- The host's path answers a next state exactly when the index is inside the register file. -/
theorem atIndex_next {i : Nat} {u : State} : s.atIndex i u = .next t ↔ i < s.cfg.n ∧ t = u := by
  unfold State.atIndex
  split
  · rename_i h; simp [h, eq_comm]
  · rename_i h; simp [h]

theorem atIndex_of_lt {i : Nat} {u : State} (h : i < s.cfg.n) : s.atIndex i u = .next u := if_pos h

/-- An engine step is the row of the table that it names. -/
theorem runStep_eq_exec (e : EngineStep) (s : State) : runStep e s = exec e.toInstr s := by cases e <;> rfl

/-- What a `BIT` can do: nothing but put out the wire value when disarmed, count a bit, or count the last bit of a unit and
run the overflow step. -/
theorem execBit_cases (m : Level) (s : State) :
    (s.bitCount = 0 ∧ execBit m s = .next (s.emit (some (.wire (s.wireLevel m))))) ∨
    (2 ≤ s.bitCount ∧
      execBit m s = .next ((s.emit (some (.wire (s.wireLevel m)))).countBit (s.wireLevel m))) ∨
    (s.bitCount = 1 ∧
      execBit m s = overflowStep ((s.emit (some (.wire (s.wireLevel m)))).countBit (s.wireLevel m))) := by
  unfold execBit
  rcases Nat.lt_or_ge s.bitCount 2 with h | h
  · rcases Nat.lt_or_ge s.bitCount 1 with h0 | h1
    · have : s.bitCount = 0 := by omega
      simp [this]
    · have : s.bitCount = 1 := by omega
      simp [this]
  · have h0 : s.bitCount ≠ 0 := by omega
    have h1 : s.bitCount - 1 ≠ 0 := by omega
    simp [h, h0, h1]

/-- With nothing requested the block keeps its state (log 6). -/
theorem step_idle (h : s.pending = []) : step s = .next s := by
  unfold step State.fetch
  rw [h]

/-- With a request, the step is `exec` of the operation it selects. -/
theorem step_request {r : Request} {rest : List Request} (h : s.pending = r :: rest) (hc : s.cfg.wf) :
    step s = exec (selectRequest s.stopFlag r) { s with pending := rest } := by
  unfold step State.fetch
  rw [h]
  simp only [if_pos hc]

/-- Outside the ranges of R8 no operation has a meaning (log 15). -/
theorem step_badConfiguration {r : Request} {rest : List Request} (h : s.pending = r :: rest) (hc : ¬ s.cfg.wf) :
    step s = .refused .badConfiguration := by
  unfold step State.fetch
  rw [h]
  simp only [if_neg hc]

/-- Everything a step that answers a next state can be. -/
theorem step_cases (h : step s = .next t) :
    (s.pending = [] ∧ t = s) ∨
    ∃ r rest, s.pending = r :: rest ∧ s.cfg.wf ∧
      exec (selectRequest s.stopFlag r) { s with pending := rest } = .next t := by
  rcases hp : s.pending with _ | ⟨r, rest⟩
  · rw [step_idle hp] at h
    injection h with h
    exact Or.inl ⟨rfl, h.symm⟩
  · by_cases hc : s.cfg.wf
    · rw [step_request hp hc] at h
      exact Or.inr ⟨r, rest, rfl, hc, h⟩
    · rw [step_badConfiguration hp hc] at h
      cases h

end Sys2Proof.Machine
end

