-- ==== Sys2Proof/Laws/Overflow.lean ====
section
/-!
SUPPORT. What the overflow step and the register part of `P1.WR` can do, said once, and the wire value in each direction.
-/

namespace Sys2Proof.Machine

variable {s t : State}

/-- The overflow step leaves the configuration, `StopFlag` and the model's own fields alone (R20). -/
theorem overflowStep_frame (h : overflowStep s = .next t) :
    t.cfg = s.cfg ∧ t.stopFlag = s.stopFlag ∧ t.pending = s.pending ∧ t.output = s.output ∧ t.freshCount = s.freshCount := by
  unfold overflowStep at h
  cases hd : decodeStep s.cfg s.phase s.engineState s.shiftReg <;> rw [hd] at h <;> simp only [runStep] at h
  case wr d => obtain ⟨_, rfl⟩ := atPointer_next.1 h; simp
  case rdAck => obtain ⟨_, rfl⟩ := atPointer_next.1 h; simp
  all_goals cases h; exact ⟨rfl, rfl, rfl, rfl, rfl⟩

/-- What the overflow step does to `Ptr`: five engine steps write it, and every other leaves it (R13, R20). -/
theorem overflowStep_ptr (h : overflowStep s = .next t) :
    t.ptr = match decodeStep s.cfg s.phase s.engineState s.shiftReg with
      | .addrNak _ _ => s.ptr
      | .addrRd _ => s.ptr
      | .addrWr _ => 0#8
      | .regNak _ => s.ptr
      | .regAck o => o
      | .wr _ => nextIndex s.cfg.n s.ptr
      | .rd => s.ptr
      | .defensive => s.ptr
      | .rdNak => 0#8
      | .rdAck => nextIndex s.cfg.n s.ptr
      | .other => s.ptr := by
  unfold overflowStep at h
  cases hd : decodeStep s.cfg s.phase s.engineState s.shiftReg <;> rw [hd] at h <;> simp only [runStep] at h
  case wr d => obtain ⟨_, rfl⟩ := atPointer_next.1 h; simp [State.advancePtr]
  case rdAck => obtain ⟨_, rfl⟩ := atPointer_next.1 h; rfl
  all_goals cases h; rfl

/-- With the pointer inside the register file the overflow step answers a next state. -/
theorem overflowStep_completes (h : s.ptr.toNat < s.cfg.n) : ∃ t, overflowStep s = .next t := by
  unfold overflowStep
  cases decodeStep s.cfg s.phase s.engineState s.shiftReg <;> simp only [runStep]
  case wr d => exact ⟨_, atPointer_of_lt h⟩
  case rdAck => exact ⟨_, atPointer_of_lt h⟩
  all_goals exact ⟨_, rfl⟩

/-- A master data byte leaves every register but the addressed one. -/
theorem State.readReg_acceptByte_other {p j : Nat} (d : Byte) (h : j ≠ p) :
    (s.acceptByte p d).readReg j = s.readReg j := by
  unfold State.acceptByte
  split
  · exact Memory.read_write_other h
  · rfl

/-- A master data byte is merged into the addressed register, whatever the mask. -/
theorem State.readReg_acceptByte_same {p : Nat} (d : Byte) (h : Memory.wf s.cfg s.regs) :
    (s.acceptByte p d).readReg p = mergeMasked (s.readReg p) (maskAt s.cfg p) d := by
  unfold State.acceptByte
  split
  · exact Memory.read_write_same h.1
  · rename_i hm
    rw [Decidable.not_not.1 hm]
    unfold mergeMasked
    generalize s.readReg p = b
    revert b
    simp only [BitVec.and_zero, BitVec.or_zero]
    decide

/-- A master data byte keeps the register file in canonical form. -/
theorem State.acceptByte_wf {p : Nat} (d : Byte) (h : Memory.wf s.cfg s.regs) (hp : p < s.cfg.n) :
    Memory.wf s.cfg (s.acceptByte p d).regs := by
  rw [State.acceptByte_regs]
  split
  · exact Memory.write_wf h hp
  · exact h

/-- While the block listens the wire is the master's. -/
theorem State.wireLevel_listening (m : Level) (h : s.dir = .listening) : s.wireLevel m = m := by
  have key : ∀ x : Level, x &&& 1#1 = x := by decide
  simp [State.wireLevel, State.contribution, h, key]

end Sys2Proof.Machine
end

