-- ==== Sys2Proof/Laws/PerInstr.lean ====
section
/-!
SUPPORT. Per operation: its byte carries the bits that its row of the operation table fixes (R75).
-/

namespace Sys2Proof.Laws.FixedBits

/-- Whatever byte encodes the operation has the row's fixed bits at their values (R75). -/
def Statement (i : Instr) : Prop := ∀ b, encode i = some b → b &&& (fixedBits i).1 = (fixedBits i).2

theorem addressByte_and_one (a : Addr7) (rw : Level) : addressByte a rw &&& 1#8 = rw.setWidth 8 := by
  unfold addressByte; revert a rw; decide

theorem of_none {i : Instr} (h : encode i = none) : Statement i := fun b hb => by rw [h] at hb; cases hb

theorem of_no_mask {i : Instr} (h : fixedBits i = (0#8, 0#8)) : Statement i := fun b _ => by rw [h]; simp

theorem start : Statement .start := of_none rfl
theorem stop : Statement .stop := of_none rfl
theorem bit (m : Level) : Statement (.bit m) := of_none rfl
theorem p1AddrNak (addr : Addr7) (rw : Level) : Statement (.p1AddrNak addr rw) := of_no_mask rfl
theorem p1AddrRd (addr : Addr7) : Statement (.p1AddrRd addr) := fun x hx => by
  cases hx; exact addressByte_and_one addr 1#1
theorem p1AddrWr (addr : Addr7) : Statement (.p1AddrWr addr) := fun x hx => by
  cases hx; exact addressByte_and_one addr 0#1
theorem p1RegNak (offset : Byte) : Statement (.p1RegNak offset) := of_no_mask rfl
theorem p1RegAck (offset : Byte) : Statement (.p1RegAck offset) := of_no_mask rfl
theorem p1Wr (data : Byte) : Statement (.p1Wr data) := of_no_mask rfl
theorem p1Rd : Statement .p1Rd := of_no_mask rfl
theorem p1Def : Statement .p1Def := of_no_mask rfl
theorem p2RdNak : Statement .p2RdNak := fun x hx => by cases hx; rfl
theorem p2RdAck : Statement .p2RdAck := fun x hx => by cases hx; rfl
theorem p2Other : Statement .p2Other := of_no_mask rfl
theorem regRead (i : Nat) : Statement (.regRead i) := of_none rfl
theorem regWriteRaw (i : Nat) (v : Byte) : Statement (.regWriteRaw i v) := of_none rfl
theorem maskRead (i : Nat) : Statement (.maskRead i) := of_none rfl
theorem checkStopIdle : Statement .checkStopIdle := of_none rfl
theorem checkStopDone : Statement .checkStopDone := of_none rfl
theorem init : Statement .init := of_none rfl
theorem reset : Statement .reset := of_none rfl

end Sys2Proof.Laws.FixedBits
end

