-- ==== Sys2Proof/Laws/Run.lean ====
section
/-!
SUPPORT. Runs of several operations: a run takes its first step and goes on, runs and what they put out compose, and the
step of each request of the bus.
-/

namespace Sys2Proof.Machine

variable {s t u : State}

theorem runSteps_next (n : Nat) (h : step s = .next t) : runSteps (n + 1) s = runSteps n t := by
  have h' : Sys2Proof.core.step s = .next t := h
  simp only [runSteps, Host.Core.run, h']
  rfl

/-- A step with a request lists the output of its operation. -/
theorem stepOutputs_of_request (t : State) (hp : s.pending ≠ []) : stepOutputs s t = [t.output] := by
  unfold stepOutputs
  split
  · rename_i h; exact absurd h hp
  · rfl

/-- A step with nothing requested lists nothing. -/
theorem stepOutputs_of_idle (t : State) (hp : s.pending = []) : stepOutputs s t = [] := by
  simp only [stepOutputs, hp]

theorem outputs_step (n : Nat) (h : step s = .next t) : outputs (n + 1) s = stepOutputs s t ++ outputs n t := by
  simp only [outputs, h]

/-- The trace of a run that begins with a request. -/
theorem outputs_next (n : Nat) (hp : s.pending ≠ []) (h : step s = .next t) :
    outputs (n + 1) s = t.output :: outputs n t := by
  rw [outputs_step n h, stepOutputs_of_request t hp]
  rfl

/-- With nothing requested nothing is put out, however many steps are taken. -/
theorem outputs_idle (n : Nat) (hp : s.pending = []) : outputs n s = [] := by
  induction n with
  | zero => rfl
  | succ n ih => rw [outputs_step n (step_idle hp), stepOutputs_of_idle s hp, ih]; rfl

/-- A run that answers a next state took a first step that did. -/
theorem runSteps_succ_cases {n : Nat} (h : runSteps (n + 1) s = .next u) :
    ∃ t, step s = .next t ∧ runSteps n t = .next u := by
  rcases hs : step s with t | r | r
  · exact ⟨t, rfl, by rw [← runSteps_next n hs]; exact h⟩
  all_goals
    have h' : Sys2Proof.core.step s = _ := hs
    simp only [runSteps, Host.Core.run, h'] at h
    cases h

/-- A run is the run of its first part and then of its rest. -/
theorem runSteps_add (m n : Nat) (h : runSteps m s = .next t) : runSteps (m + n) s = runSteps n t := by
  induction m generalizing s with
  | zero => cases h; rw [Nat.zero_add]
  | succ m ih =>
    obtain ⟨u, hu, hr⟩ := runSteps_succ_cases h
    rw [Nat.succ_add, runSteps_next _ hu]
    exact ih hr

/-- What a run puts out is what its first part puts out and then what its rest does. -/
theorem outputs_add (m n : Nat) (h : runSteps m s = .next t) : outputs (m + n) s = outputs m s ++ outputs n t := by
  induction m generalizing s with
  | zero => cases h; rw [Nat.zero_add]; rfl
  | succ m ih =>
    obtain ⟨u, hu, hr⟩ := runSteps_succ_cases h
    rw [Nat.succ_add, outputs_step _ hu, outputs_step _ hu, ih hr, List.append_assoc]

/-- A run of one step is that step. -/
theorem runSteps_one : runSteps 1 s = step s := by
  rcases hs : step s with t | r | r
  · exact runSteps_next 0 hs
  all_goals
    have h' : Sys2Proof.core.step s = _ := hs
    simp only [runSteps, Host.Core.run, h']
    rfl

/-- The step of a `BIT`. -/
theorem step_bit (s : State) (m : Level) (rest : List Request) (hc : s.cfg.wf) :
    step { s with pending := .bit m :: rest } = execBit m { s with pending := rest } :=
  step_request (s := { s with pending := .bit m :: rest }) rfl hc

/-- The step of a `START`. -/
theorem step_start (s : State) (rest : List Request) (hc : s.cfg.wf) :
    step { s with pending := .start :: rest } = execStart { s with pending := rest } :=
  step_request (s := { s with pending := .start :: rest }) rfl hc

/-- The step of a `STOP`. -/
theorem step_stop (s : State) (rest : List Request) (hc : s.cfg.wf) :
    step { s with pending := .stop :: rest } = execStop { s with pending := rest } :=
  step_request (s := { s with pending := .stop :: rest }) rfl hc

end Sys2Proof.Machine
end

