-- ==== Sys2Proof/Tests/Slice0.lean ====
section
/-!
SUPPORT. Tests of the model on the spec's vectors (95_test_vectors, Part 2: V<n>), one step each, in the reference
configuration; the well-formedness smoke test; and a witness for the hypotheses of each statement.
-/

namespace Sys2Proof.Tests

open Sys2Proof Sys2Proof.Machine

/-! ## Helpers -/

/-- The next state, if there is one. -/
def nextState (r : Result) : Option State :=
  match r with
  | .next t => some t
  | .fault _ => none
  | .refused _ => none

/-- What a test looks at in the next state. -/
def after {α : Type} (r : Result) (f : State → α) : Option α := (nextState r).map f

theorem exists_next {r : Result} (p : State → Prop) [DecidablePred p]
    (h : ((nextState r).any fun t => decide (p t)) = true) : ∃ t, r = .next t ∧ p t := by
  cases r with
  | next t => exact ⟨t, rfl, by simpa [nextState] using h⟩
  | fault _ => simp [nextState] at h
  | refused _ => simp [nextState] at h

/-- A state of the reference configuration with a given sequencer and shifter. -/
def at_ (st : EngineState) (ph : Phase) (bits : Nat) (d : Dir) (sh : Byte) : State :=
  { State.reset with engineState := st, phase := ph, bitCount := bits, dir := d, shiftReg := sh }

/-- The sequencer and the shifter, as the vectors write them. -/
structure Shifter where
  /-- `BitCount`. -/
  bits : Nat
  /-- `Phase`. -/
  phase : Phase
  /-- `Dir`. -/
  dir : Dir
  /-- `ShiftReg`. -/
  reg : Byte
  deriving DecidableEq, Repr

/-- The sequencer and the shifter of a state. -/
def shifter (t : State) : Shifter := ⟨t.bitCount, t.phase, t.dir, t.shiftReg⟩

/-- The own ACK armed. -/
def ownAck : Shifter := ⟨1, .postAck, .driving, 0x00#8⟩

theorem inv_of_parts {s : State}
    (h : s.cfg.wf ∧ Memory.wf s.cfg s.regs ∧ s.ptr.toNat < s.cfg.n ∧ s.tally ≤ tallyMax s.cfg ∧ s.bitCount ≤ 8 ∧
      (s.phase = .postAck → s.bitCount = 1) ∧ (s.bitCount = 0 → s.dir = .listening ∧ s.phase = .preAck) ∧
      (s.engineState = .regAddr → s.ptr = 0#8)) : s.Inv :=
  ⟨h.1, h.2.1, h.2.2.1, h.2.2.2.1, h.2.2.2.2.1, h.2.2.2.2.2.1, h.2.2.2.2.2.2.1, h.2.2.2.2.2.2.2⟩

/-! ## Well-formedness: an ill-formed term for each check -/

theorem test_config_wf_reference : Config.reference.wf := by decide
theorem test_config_no_register : ¬ ({ Config.reference with n := 0, mask := [], initRegs := [] } : Config).wf := by decide
theorem test_config_257_registers :
    ¬ ({ Config.reference with n := 257, mask := List.replicate 257 0#8, initRegs := List.replicate 257 0#8 } : Config).wf := by
  decide
theorem test_config_mask_too_short : ¬ ({ Config.reference with mask := [0xFF#8] } : Config).wf := by decide
theorem test_config_init_too_short : ¬ ({ Config.reference with initRegs := [0xFF#8] } : Config).wf := by decide
theorem test_config_tally_of_no_bits : ¬ ({ Config.reference with tallyW := 0 } : Config).wf := by decide
theorem test_wf_nak_of_own_address : (Instr.p1AddrNak 0x30#7 0#1).wf Config.reference = false := by decide
theorem test_wf_nak_of_address_zero : (Instr.p1AddrNak 0x00#7 0#1).wf Config.reference = false := by decide
theorem test_wf_read_of_foreign_address : (Instr.p1AddrRd 0x31#7).wf Config.reference = false := by decide
theorem test_wf_write_of_foreign_address : (Instr.p1AddrWr 0x31#7).wf Config.reference = false := by decide
theorem test_wf_nak_of_offset_in_range : (Instr.p1RegNak 0x07#8).wf Config.reference = false := by decide
theorem test_wf_ack_of_offset_out_of_range : (Instr.p1RegAck 0x08#8).wf Config.reference = false := by decide
theorem test_wf_read_index : (Instr.regRead 8).wf Config.reference = false := by decide
theorem test_wf_write_index : (Instr.regWriteRaw 8 0#8).wf Config.reference = false := by decide
theorem test_wf_mask_index : (Instr.maskRead 8).wf Config.reference = false := by decide

/-! ## Decoding: words written out bit by bit from the table's encodings (R75) and the vectors V20 to V38, V50, V62, V66 -/

theorem test_decode_addrWr : decodeStep Config.reference .preAck .addrMatch 0b01100000#8 = .addrWr 0b0110000#7 := by decide
theorem test_decode_addrRd : decodeStep Config.reference .preAck .addrMatch 0b01100001#8 = .addrRd 0b0110000#7 := by decide
theorem test_decode_address_zero_write : decodeStep Config.reference .preAck .addrMatch 0b00000000#8 = .addrWr 0#7 := by decide
theorem test_decode_address_zero_read : decodeStep Config.reference .preAck .addrMatch 0b00000001#8 = .addrRd 0#7 := by decide
theorem test_decode_addrNak_read : decodeStep Config.reference .preAck .addrMatch 0b01011111#8 = .addrNak 0b0101111#7 1#1 := by decide
theorem test_decode_addrNak_top_bit : decodeStep Config.reference .preAck .addrMatch 0b11100000#8 = .addrNak 0b1110000#7 0#1 := by decide
theorem test_decode_regAck : decodeStep Config.reference .preAck .regAddr 0b00000111#8 = .regAck 0b00000111#8 := by decide
theorem test_decode_regNak : decodeStep Config.reference .preAck .regAddr 0b00001000#8 = .regNak 0b00001000#8 := by decide
theorem test_decode_regNak_unsigned : decodeStep Config.reference .preAck .regAddr 0b10000000#8 = .regNak 0b10000000#8 := by decide
theorem test_decode_256_registers (c : Config) (h : c.n = 256) : decodeStep c .preAck .regAddr 0b11111111#8 = .regAck 0xFF#8 := by
  simp [decodeStep, decodePhase1, offsetInRange, offsetOf, h]
theorem test_decode_wr : decodeStep Config.reference .preAck .masterWrite 0b01010101#8 = .wr 0b01010101#8 := by decide
theorem test_decode_rd : decodeStep Config.reference .preAck .masterRead 0b10100101#8 = .rd := by decide
theorem test_decode_rdNak : decodeStep Config.reference .postAck .masterRead 0b01111111#8 = .rdNak := by decide
theorem test_decode_rdAck : decodeStep Config.reference .postAck .masterRead 0b11111110#8 = .rdAck := by decide
theorem test_decode_other_after_address : decodeStep Config.reference .postAck .regAddr 0b00000001#8 = .other := by decide
theorem test_decode_other_in_addrMatch : decodeStep Config.reference .postAck .addrMatch 0b00000000#8 = .other := by decide
theorem test_encode_addrRd : encode (.p1AddrRd 0b0110000#7) = some 0b01100001#8 := by decide
theorem test_encode_addrNak : encode (.p1AddrNak 0b0110001#7 0#1) = some 0b01100010#8 := by decide
theorem test_encode_event : encode .start = none := by decide
theorem test_table_word_read : decodeTableWord 8 0x61 = some (.p1AddrRd 0x30#7) := by decide
theorem test_table_word_too_wide : decodeTableWord 16 0x61 = none := by decide
theorem test_fetch_word_runs :
    after (step (State.reset.withFetchWord 8 0x61)) (fun t => (t.engineState, shifter t)) = some (.masterRead, ownAck) := by decide

/-! ## Bus events -/

/-- V1. -/
theorem test_start_mid_write :
    after (exec .start { at_ .masterWrite .preAck 5 .listening 0x00#8 with ptr := 3#8, tally := 1 })
      (fun t => (t.engineState, shifter t, t.ptr, t.tally)) = some (.addrMatch, ⟨8, .preAck, .listening, 0x00#8⟩, 3#8, 1) := by decide
/-- V2, V5. -/
theorem test_start_releases_line :
    after (exec .start { at_ .masterRead .preAck 3 .driving 0xA0#8 with stopFlag := true })
      (fun t => (shifter t, t.stopFlag)) = some (⟨8, .preAck, .listening, 0xA0#8⟩, true) := by decide
/-- V6. -/
theorem test_stop_keeps_engine :
    after (exec .stop (at_ .masterWrite .preAck 8 .listening 0x00#8)) (fun t => (t.stopFlag, t.engineState, t.bitCount)) =
      some (true, .masterWrite, 8) := by decide
/-- V9: the last bit of an address byte that does not match. -/
theorem test_bit_runs_overflow :
    after (exec (.bit 0#1) (at_ .addrMatch .preAck 1 .listening 0x61#8)) (fun t => (t.output, t.engineState, shifter t)) =
      some (some (.wire 0#1), .addrMatch, ⟨0, .preAck, .listening, 0xC2#8⟩) := by decide
/-- V12: the master pulls low against the block's 1. -/
theorem test_bit_wired_and :
    after (exec (.bit 0#1) (at_ .masterRead .preAck 8 .driving 0xA5#8)) (fun t => (t.output, t.shiftReg, t.bitCount)) =
      some (some (.wire 0#1), 0x4A#8, 7) := by decide

/-! ## Phase 1 -/

/-- V24, by the overflow step. -/
theorem test_addrNak :
    after (overflowStep { at_ .addrMatch .preAck 0 .listening 0x62#8 with ptr := 5#8 })
      (fun t => (t.engineState, t.ptr, shifter t)) = some (.addrMatch, 5#8, ⟨0, .preAck, .listening, 0x62#8⟩) := by decide
/-- V21. -/
theorem test_addrRd_keeps_pointer :
    after (overflowStep { at_ .addrMatch .preAck 0 .listening 0x61#8 with ptr := 5#8 })
      (fun t => (t.engineState, t.ptr, shifter t)) = some (.masterRead, 5#8, ownAck) := by decide
/-- V20. -/
theorem test_addrWr_resets_pointer :
    after (overflowStep { at_ .addrMatch .preAck 0 .listening 0x60#8 with ptr := 5#8 })
      (fun t => (t.engineState, t.ptr, shifter t)) = some (.regAddr, 0#8, ownAck) := by decide
/-- V33. -/
theorem test_regNak :
    after (overflowStep (at_ .regAddr .preAck 0 .listening 0x08#8)) (fun t => (t.engineState, t.ptr, shifter t)) =
      some (.addrMatch, 0#8, ⟨0, .preAck, .listening, 0x08#8⟩) := by decide
/-- V31. -/
theorem test_regAck_takes_offset_before_ack :
    after (overflowStep (at_ .regAddr .preAck 0 .listening 0x07#8)) (fun t => (t.engineState, t.ptr, shifter t)) =
      some (.masterWrite, 7#8, ownAck) := by decide
/-- V43: the old value's protected bits and the tally's top. -/
theorem test_wr_masked_and_saturating :
    after (overflowStep { at_ .masterWrite .preAck 0 .listening 0x15#8 with regs := [(2, 0xFF#8)], ptr := 2#8, tally := 255 })
      (fun t => (t.readReg 2, t.tally, t.ptr, shifter t)) = some (0xD5#8, 255, 3#8, ownAck) := by decide
/-- V47 and the wrap of V46: a read-only register at the top of the file. -/
theorem test_wr_zero_mask_and_wrap :
    (after (exec (.p1Wr 0x00#8) { at_ .masterWrite .preAck 0 .listening 0x00#8 with ptr := 6#8 })
      fun t => (t.readReg 6, t.tally, t.ptr)) = some (0xFF#8, 0, 7#8) ∧
    (after (exec (.p1Wr 0xAA#8) { at_ .masterWrite .preAck 0 .listening 0x00#8 with ptr := 7#8 })
      fun t => (t.readReg 7, t.tally, t.ptr)) = some (0xAA#8, 1, 0#8) := by decide
/-- V50. -/
theorem test_rd_releases :
    after (overflowStep { at_ .masterRead .preAck 0 .driving 0xA5#8 with ptr := 1#8 })
      (fun t => (t.engineState, t.ptr, shifter t)) = some (.masterRead, 1#8, ⟨1, .postAck, .listening, 0xA5#8⟩) := by decide
/-- V51, on the row itself. -/
theorem test_def_keeps_state :
    after (exec .p1Def (at_ .masterWrite .preAck 0 .driving 0xA5#8)) (fun t => (t.engineState, shifter t)) =
      some (.masterWrite, ⟨0, .preAck, .listening, 0xA5#8⟩) := by decide

/-! ## Phase 2 -/

/-- R100's example. -/
theorem test_rdNak :
    after (overflowStep { at_ .masterRead .postAck 0 .listening 0x7F#8 with ptr := 3#8 })
      (fun t => (t.engineState, t.ptr, shifter t)) = some (.addrMatch, 0#8, ⟨0, .preAck, .listening, 0x7F#8⟩) := by decide
/-- V61: the pointer wraps. -/
theorem test_rdAck_wraps :
    after (overflowStep { at_ .masterRead .postAck 0 .listening 0x00#8 with ptr := 7#8 })
      (fun t => (t.engineState, t.ptr, shifter t)) = some (.masterRead, 0#8, ⟨8, .preAck, .driving, 0x80#8⟩) := by decide
/-- V66. -/
theorem test_other :
    after (overflowStep (at_ .regAddr .postAck 0 .driving 0x00#8)) (fun t => (t.engineState, shifter t)) =
      some (.regAddr, ⟨8, .preAck, .listening, 0x00#8⟩) := by decide

/-! ## Host operations -/

/-- V70. -/
theorem test_regRead : after (exec (.regRead 6) State.reset) State.output = some (some (.byte 0xFF#8)) := by decide
/-- V77. -/
theorem test_regRead_out_of_range : after (exec (.regRead 8) State.reset) State.output = none := by decide
/-- V74. -/
theorem test_regWriteRaw_ignores_mask :
    after (exec (.regWriteRaw 1 0x55#8) State.reset) (fun t => (t.readReg 1, t.tally, t.output)) = some (0x55#8, 0, none) := by decide
/-- Writing the reset value back leaves nothing listed, so equal register files are equal data (log 12). -/
theorem test_regWriteRaw_canonical :
    after (exec (.regWriteRaw 1 0x00#8) { State.reset with regs := [(0, 0x11#8), (1, 0x55#8), (3, 0x77#8)] }) State.regs =
      some [(0, 0x11#8), (3, 0x77#8)] := by decide
/-- V72. -/
theorem test_maskRead : after (exec (.maskRead 2) State.reset) State.output = some (some (.byte 0x3F#8)) := by decide
/-- V80. -/
theorem test_checkStopIdle :
    after (step { at_ .masterWrite .preAck 8 .listening 0x00#8 with ptr := 3#8, tally := 1, pending := [.checkStop] })
      (fun t => (t.output, t.tally, t.ptr, t.engineState)) = some (some (.count 0), 1, 3#8, .masterWrite) := by decide
/-- V81. -/
theorem test_checkStopDone_resets_pointer :
    after (step { at_ .masterWrite .preAck 8 .listening 0x00#8 with ptr := 3#8, tally := 1, stopFlag := true, pending := [.checkStop] })
      (fun t => (t.output, t.tally, t.ptr, t.engineState, t.stopFlag)) = some (some (.count 1), 0, 0#8, .addrMatch, false) := by decide
/-- V82: nothing was updated, so the pointer stays. -/
theorem test_checkStopDone_keeps_pointer :
    after (step { at_ .masterWrite .preAck 8 .listening 0x00#8 with ptr := 5#8, stopFlag := true, pending := [.checkStop] })
      (fun t => (t.output, t.ptr, t.engineState)) = some (some (.count 0), 5#8, .addrMatch) := by decide
/-- V87. -/
theorem test_init :
    after (exec .init { at_ .masterWrite .preAck 4 .listening 0x00#8 with ptr := 3#8, tally := 1, stopFlag := true })
      (fun t => (t.engineState, t.bitCount, t.ptr, t.tally, t.stopFlag)) = some (.addrMatch, 8, 3#8, 1, true) := by decide
/-- V89. -/
theorem test_reset :
    after (exec .reset { at_ .masterRead .postAck 1 .driving 0x12#8 with regs := [(0, 0x11#8)], ptr := 3#8, tally := 1, stopFlag := true })
      (fun t => (t.readReg 0, t.readReg 7, t.engineState, t.ptr, t.tally, t.stopFlag)) =
      some (0x00#8, 0x80#8, .addrMatch, 0#8, 0, false) := by decide
/-- V89: the shifter, whose `ShiftReg` is left open. -/
theorem test_reset_shifter :
    after (exec .reset (at_ .masterRead .postAck 1 .driving 0x12#8)) (fun t => (t.bitCount, t.phase, t.dir)) =
      some (8, .preAck, .listening) := by decide

/-! ## Steps -/

theorem test_step_idle : step State.reset = .next State.reset := step_idle rfl
theorem test_step_bad_configuration :
    after (step { State.reset with cfg := { Config.reference with n := 0 }, pending := [.start] }) State.output = none := by decide
/-- An idle step repeats no output (log 19). -/
theorem test_outputs_end_with_the_requests :
    outputs 3 { State.reset with pending := [.bit 1#1] } = [some (.wire 1#1)] ∧ outputs 2 State.reset = [] := by decide
theorem test_wire_bits : wireBits 0b01010101#8 = [0#1, 1#1, 0#1, 1#1, 0#1, 1#1, 0#1, 1#1] := by decide
theorem test_composites :
    (setOffset Config.reference 2#8).length = 20 ∧ (writeRegs Config.reference 2#8 [0#8, 0#8]).length = 38 ∧
    (readBytes Config.reference 2).length = 29 ∧ (readRegs Config.reference 2#8 1).length = 41 ∧
    (readRegsRepeated Config.reference 2#8 1).length = 39 ∧ (takeBytes 1).length = 9 := by decide

/-! ## Witnesses: states and operands that meet the hypotheses of the statements in Certificates/Slice0/Obligations -/

/-- In the middle of a master write. -/
def writing : State := { at_ .masterWrite .preAck 1 .listening 0x7F#8 with ptr := 2#8 }
/-- In the middle of a read unit. -/
def reading : State := { at_ .masterRead .preAck 8 .driving 0x80#8 with ptr := 7#8 }
/-- In the ack unit after a matching read address. -/
def readAcked : State := { at_ .masterRead .postAck 1 .driving 0x00#8 with ptr := 7#8 }
/-- Waiting for a register-address byte. -/
def naming : State := at_ .regAddr .preAck 8 .listening 0x00#8
/-- Disarmed. -/
def disarmed : State := at_ .addrMatch .preAck 0 .listening 0x62#8

theorem witness_inv_reset : State.reset.Inv := inv_of_parts (by decide)
theorem witness_inv_writing : writing.Inv := inv_of_parts (by decide)
theorem witness_inv_reading : reading.Inv := inv_of_parts (by decide)
theorem witness_inv_readAcked : readAcked.Inv := inv_of_parts (by decide)
theorem witness_inv_naming : naming.Inv := inv_of_parts (by decide)
theorem witness_inv_disarmed : disarmed.Inv := inv_of_parts (by decide)

theorem witness_BitShifts_disarmed :
    (1#1 : Level) = (if disarmed.dir = .driving ∧ disarmed.shiftReg.toNat < 128 then 0#1 else 1#1) ∧ disarmed.bitCount = 0 ∧
    disarmed.Inv := ⟨by decide, by decide, witness_inv_disarmed⟩
theorem witness_BitShifts_counted :
    (1#1 : Level) = (if reading.dir = .driving ∧ reading.shiftReg.toNat < 128 then 0#1 else 1#1) ∧ 1 < reading.bitCount := by decide
theorem witness_BitShifts_driven_zero :
    (0#1 : Level) = (if readAcked.dir = .driving ∧ readAcked.shiftReg.toNat < 128 then 0#1 else 1#1) ∧ readAcked.bitCount = 1 := by
  decide
theorem witness_Overflow_addrNak : (at_ .addrMatch .preAck 0 .listening 0x62#8).shiftReg.toNat / 2 ≠ 0 ∧
    (at_ .addrMatch .preAck 0 .listening 0x62#8).shiftReg.toNat / 2 ≠ Config.reference.slaveAddr.toNat := by decide
theorem witness_Overflow_addrRd : (at_ .addrMatch .preAck 0 .listening 0x01#8).shiftReg.toNat / 2 = 0 ∧
    (at_ .addrMatch .preAck 0 .listening 0x01#8).shiftReg.toNat % 2 = 1 := by decide
theorem witness_Overflow_addrWr :
    (at_ .addrMatch .preAck 0 .listening 0x60#8).shiftReg.toNat / 2 = Config.reference.slaveAddr.toNat ∧
    (at_ .addrMatch .preAck 0 .listening 0x60#8).shiftReg.toNat % 2 = 0 := by decide
theorem witness_Overflow_regNak : (at_ .regAddr .preAck 0 .listening 0x08#8).phase = .preAck ∧
    (at_ .regAddr .preAck 0 .listening 0x08#8).engineState = .regAddr ∧
    Config.reference.n ≤ (at_ .regAddr .preAck 0 .listening 0x08#8).shiftReg.toNat := by decide
theorem witness_Overflow_regAck : (at_ .regAddr .preAck 0 .listening 0x07#8).phase = .preAck ∧
    (at_ .regAddr .preAck 0 .listening 0x07#8).engineState = .regAddr ∧
    (at_ .regAddr .preAck 0 .listening 0x07#8).shiftReg.toNat < Config.reference.n := by decide
theorem witness_Overflow_wr : writing.phase = .preAck ∧ writing.engineState = .masterWrite := by decide
theorem witness_Overflow_rd : reading.phase = .preAck ∧ reading.engineState = .masterRead := by decide
theorem witness_Overflow_rdNak : (at_ .masterRead .postAck 0 .listening 0x01#8).phase = .postAck ∧
    (at_ .masterRead .postAck 0 .listening 0x01#8).engineState = .masterRead ∧
    (at_ .masterRead .postAck 0 .listening 0x01#8).shiftReg.toNat % 2 = 1 := by decide
theorem witness_Overflow_rdAck : readAcked.phase = .postAck ∧ readAcked.engineState = .masterRead ∧
    readAcked.shiftReg.toNat % 2 = 0 ∧ readAcked.ptr.toNat < readAcked.cfg.n := by decide
theorem witness_Overflow_other : (at_ .regAddr .postAck 0 .driving 0x00#8).phase = .postAck ∧
    (at_ .regAddr .postAck 0 .driving 0x00#8).engineState ≠ .masterRead := by decide
theorem witness_Overflow_completes : ∃ t, overflowStep { writing with bitCount := 0 } = .next t ∧ t.bitCount = 1 :=
  exists_next _ (by decide)
theorem witness_OffsetOutOfRange_256 : ({ State.reset with cfg := { Config.reference with n := 256 } } : State).cfg.n = 256 := rfl
theorem witness_OffsetOutOfRange_regAddr : naming.Inv ∧ naming.engineState = .regAddr := ⟨witness_inv_naming, rfl⟩
theorem witness_StepRuns_request :
    ({ State.reset with pending := [.checkStop] } : State).pending = .checkStop :: [] ∧ State.reset.cfg.wf := by decide
theorem witness_StepRuns_bad :
    ¬ ({ State.reset with cfg := { Config.reference with n := 0 }, pending := [.start] } : State).cfg.wf := by decide
theorem witness_StepRuns_idle : State.reset.pending = [] := rfl
theorem witness_DecodeOfEncode : (Instr.p1AddrRd 0x30#7).wf Config.reference = true ∧
    (Instr.p1AddrRd 0x30#7).selectedIn .preAck .addrMatch = true ∧ encode (.p1AddrRd 0x30#7) = some 0x61#8 := by decide
theorem witness_DecodeOfEncode_ack : Instr.p2RdNak.wf Config.reference = true ∧
    Instr.p2RdNak.selectedIn .postAck .masterRead = true ∧ encode .p2RdNak = some 0x01#8 := by decide
theorem witness_MasterWrite_masked : maskAt writing.cfg writing.ptr.toNat ≠ 0#8 ∧ writing.Inv := ⟨by decide, witness_inv_writing⟩
theorem witness_MasterWrite_readOnly :
    maskAt Config.reference (6#8 : Byte).toNat = 0#8 ∧ ({ writing with ptr := 6#8 } : State).Inv := ⟨by decide, inv_of_parts (by decide)⟩
theorem witness_PointerOutside : ({ writing with ptr := 8#8 } : State).cfg.n ≤ ({ writing with ptr := 8#8 } : State).ptr.toNat := by
  decide
theorem witness_Host_index_in_range : 7 < State.reset.cfg.n ∧ State.reset.Inv := ⟨by decide, witness_inv_reset⟩
theorem witness_Step_index_out_of_range : ({ reading with pending := [.regRead 8] } : State).Inv ∧
    step { reading with pending := [.regRead 8] } = .refused (.indexOutOfRange 8) := ⟨inv_of_parts (by decide), rfl⟩
theorem witness_Host_index_out_of_range : State.reset.cfg.n ≤ 8 := by decide
theorem witness_MaskedWrite_full : maskAt State.reset.cfg 0 = 0xFF#8 ∧ maskAt State.reset.cfg 1 = 0x00#8 := by decide
theorem witness_HostReadsTheMask_exec : ∃ t, exec .start reading = .next t ∧ t.bitCount = 8 := exists_next _ (by decide)
theorem witness_CheckStopIdle : State.reset.stopFlag = false := rfl
theorem witness_CheckStopDone : ({ writing with stopFlag := true } : State).stopFlag = true := rfl
theorem witness_Init_twice : ∃ t, exec .init reading = .next t ∧ t.dir = .listening := exists_next _ (by decide)
theorem witness_Reset_then_init : ∃ t, exec .reset reading = .next t ∧ t.dir = .listening := exists_next _ (by decide)
theorem witness_InvariantAtReset : Config.reference.wf := by decide
theorem witness_EveryStepKeepsTheInvariant : ({ writing with pending := [.bit 1#1] } : State).Inv ∧
    ∃ t, step { writing with pending := [.bit 1#1] } = .next t ∧ t.tally = 1 := ⟨inv_of_parts (by decide), exists_next _ (by decide)⟩
theorem witness_EveryStepKeepsTheLineTable : ({ readAcked with pending := [.bit 1#1] } : State).Inv ∧
    ({ readAcked with pending := [.bit 1#1] } : State).FollowsLineTable ∧
    ¬ ({ readAcked with pending := [.bit 1#1] } : State).pollsMidTransaction ∧
    ∃ t, step { readAcked with pending := [.bit 1#1] } = .next t ∧ t.shiftReg = 0x80#8 :=
  ⟨inv_of_parts (by decide), Or.inr ⟨rfl, rfl⟩, fun h => absurd h.1 (by decide), exists_next _ (by decide)⟩
theorem witness_EveryStepKeepsTheLineTable_poll :
    ({ writing with stopFlag := true, pending := [.checkStop] } : State).FollowsLineTable ∧
    ¬ ({ writing with stopFlag := true, pending := [.checkStop] } : State).pollsMidTransaction :=
  ⟨⟨rfl, by decide⟩, fun h => h.2.2.elim (by decide) (by decide)⟩
theorem witness_LineIsPulledLow_ack : readAcked.FollowsLineTable ∧ readAcked.contribution = 0#1 := ⟨Or.inr ⟨rfl, rfl⟩, by decide⟩
theorem witness_LineIsPulledLow_data : (at_ .masterRead .preAck 8 .driving 0x7F#8).FollowsLineTable ∧
    (at_ .masterRead .preAck 8 .driving 0x7F#8).contribution = 0#1 := ⟨⟨rfl, by decide⟩, by decide⟩
theorem witness_RegistersChange :
    ∃ t, step { writing with pending := [.bit 1#1] } = .next t ∧ t.readReg 2 ≠ ({ writing with pending := [.bit 1#1] } : State).readReg 2 :=
  exists_next _ (by decide)
theorem witness_BusNeverChanges : writing.Inv ∧ (maskAt writing.cfg 2).getLsbD 7 = false ∧
    ∃ t, exec (.bit 1#1) writing = .next t ∧ t.readReg 2 = 0x3F#8 := ⟨witness_inv_writing, by decide, exists_next _ (by decide)⟩
theorem witness_PointerMoves : ∃ t, step { writing with pending := [.bit 1#1] } = .next t ∧ t.ptr ≠ writing.ptr ∧
    decodeStep writing.cfg writing.phase writing.engineState (shiftIn writing.shiftReg (writing.wireLevel 1#1)) = .wr 0xFF#8 :=
  exists_next _ (by decide)
theorem witness_PointerMoves_addrWr :
    ∃ t, step { at_ .addrMatch .preAck 1 .listening 0x30#8 with ptr := 5#8, pending := [.bit 0#1] } = .next t ∧ t.ptr = 0#8 :=
  exists_next _ (by decide)
theorem witness_PointerMoves_regAck :
    ∃ t, step { at_ .regAddr .preAck 1 .listening 0x03#8 with pending := [.bit 1#1] } = .next t ∧ t.ptr = 7#8 :=
  exists_next _ (by decide)
theorem witness_PointerMoves_rdNak :
    ∃ t, step { at_ .masterRead .postAck 1 .listening 0x80#8 with ptr := 7#8, pending := [.bit 1#1] } = .next t ∧ t.ptr = 0#8 :=
  exists_next _ (by decide)
theorem witness_PointerMoves_rdAck :
    ∃ t, step { readAcked with ptr := 6#8, pending := [.bit 1#1] } = .next t ∧ t.ptr = 7#8 := exists_next _ (by decide)
theorem witness_PointerMoves_checkStop :
    ∃ t, step { writing with tally := 1, stopFlag := true, pending := [.checkStop] } = .next t ∧ t.ptr = 0#8 :=
  exists_next _ (by decide)
theorem witness_PointerMoves_reset : ∃ t, step { writing with pending := [.reset] } = .next t ∧ t.ptr = 0#8 :=
  exists_next _ (by decide)
theorem witness_StopFlag_set : ∃ t, step { writing with pending := [.stop] } = .next t ∧ writing.stopFlag = false ∧ t.stopFlag = true :=
  exists_next _ (by decide)
theorem witness_StopFlag_cleared :
    ∃ t, step { writing with stopFlag := true, pending := [.checkStop] } = .next t ∧ t.stopFlag = false := exists_next _ (by decide)
theorem witness_Tally_raised : ∃ t, step { writing with pending := [.bit 1#1] } = .next t ∧ writing.tally < t.tally :=
  exists_next _ (by decide)
theorem witness_Tally_lowered :
    ∃ t, step { writing with tally := 3, stopFlag := true, pending := [.checkStop] } = .next t ∧ t.tally < 3 := exists_next _ (by decide)
theorem witness_HostLearnsNothing :
    ({ reading with stopFlag := true } : State).cfg = State.reset.cfg ∧ ({ reading with stopFlag := true } : State).regs = State.reset.regs ∧
    ∃ t, exec (selectRequest true .checkStop) { reading with stopFlag := true } = .next t ∧ t.output = some (.count 0) :=
  ⟨rfl, rfl, exists_next _ (by decide)⟩
theorem witness_HostLearnsNothing_read : ∃ t, exec (selectRequest false (.regRead 7)) reading = .next t ∧ t.output = some (.byte 0x80#8) :=
  exists_next _ (by decide)
theorem witness_HostLearnsNothing_mask : ∃ t, exec (selectRequest false (.maskRead 7)) reading = .next t ∧ t.output = some (.byte 0xFF#8) :=
  exists_next _ (by decide)
theorem witness_BusLearnsNothing : ∃ t, exec (.bit 1#1) writing = .next t ∧ t.tally = 1 := exists_next _ (by decide)
theorem witness_ShiftRegUnobservable : State.reset.cfg.wf ∧ State.reset.dir = .listening ∧ State.reset.phase = .preAck ∧
    State.reset.bitCount = 8 ∧ ([1#1, 0#1, 1#1, 0#1, 1#1, 0#1, 1#1, 0#1] : List Level).length = 8 := by decide
theorem witness_ForeignTransaction : State.reset.cfg.wf ∧ State.reset.engineState = .addrMatch ∧ State.reset.dir = .listening ∧
    State.reset.phase = .preAck ∧ State.reset.bitCount = 8 ∧ (0x62#8 : Byte).toNat / 2 ≠ 0 ∧
    (0x62#8 : Byte).toNat / 2 ≠ State.reset.cfg.slaveAddr.toNat := by decide
theorem witness_InvalidOffset : naming.cfg.wf ∧ naming.engineState = .regAddr ∧ naming.dir = .listening ∧ naming.phase = .preAck ∧
    naming.bitCount = 8 ∧ naming.cfg.n ≤ (0x08#8 : Byte).toNat := by decide
theorem witness_FirstReadByte : ∃ t, exec (.p1AddrRd 0x30#7) reading = .next t ∧ reading.ptr.toNat < reading.cfg.n :=
  exists_next _ (by decide)
theorem witness_ReadReturns : readAcked.Inv ∧ readAcked.engineState = .masterRead ∧ readAcked.phase = .postAck ∧
    readAcked.dir = .driving ∧ readAcked.shiftReg = 0#8 := ⟨witness_inv_readAcked, rfl, rfl, rfl, rfl⟩
theorem witness_SetOffset_and_Write : State.reset.Inv ∧ (7#8 : Byte).toNat < State.reset.cfg.n := ⟨witness_inv_reset, by decide⟩
theorem witness_ChecksBetween :
    ∃ t, exec .checkStopDone { readAcked with stopFlag := true } = .next t ∧ readAcked.phase = .postAck := exists_next _ (by decide)

end Sys2Proof.Tests
end

section
/-!
PROOFS. The scope of the block (00_scope): how a step reaches `exec` (R6), and what each of the two observers of R7 learns.
-/

namespace Sys2Proof.Machine

variable {s t : State}

/-! The equations of `BIT`, one for each range of `BitCount` (R82). -/

theorem execBit_disarmed (m : Level) (h : s.bitCount = 0) :
    execBit m s = .next (s.emit (some (.wire (s.wireLevel m)))) := by
  simp [execBit, h]

theorem execBit_counting (m : Level) (h : 2 ≤ s.bitCount) :
    execBit m s = .next ((s.emit (some (.wire (s.wireLevel m)))).countBit (s.wireLevel m)) := by
  have armed : s.bitCount ≠ 0 := by omega
  have unfinished : s.bitCount - 1 ≠ 0 := by omega
  simp [execBit, armed, unfinished]

theorem execBit_completing (m : Level) (h : s.bitCount = 1) :
    execBit m s = overflowStep ((s.emit (some (.wire (s.wireLevel m)))).countBit (s.wireLevel m)) := by
  simp [execBit, h]

/-! What each host operation with a result puts out (R110, R112, R120, R121). -/

theorem execRegRead_output {i : Nat} (h : execRegRead i s = .next t) : t.output = some (.byte (s.readReg i)) := by
  obtain ⟨-, rfl⟩ := atIndex_next.1 h
  rfl

theorem execMaskRead_output {i : Nat} (h : execMaskRead i s = .next t) : t.output = some (.byte (maskAt s.cfg i)) := by
  obtain ⟨-, rfl⟩ := atIndex_next.1 h
  rfl

/-- Both rows of `CHECK_STOP` at once: it reports the tally of a stopped transaction, and 0 before the stop. -/
theorem execCheckStop_output (h : exec (selectRequest s.stopFlag .checkStop) s = .next t) :
    t.output = some (.count (if s.stopFlag then s.tally else 0)) := by
  cases hf : s.stopFlag <;> rw [hf] at h
  case false => cases h; rfl
  case true => cases h; rfl

/-! States that differ in `Tally` and `StopFlag` only. -/

/-- `s` with another tally and another `StopFlag`: the two elements that the host alone is told (R20). -/
def State.withStatus (s : State) (a : Nat) (f : Bool) : State := { s with tally := a, stopFlag := f }

@[simp] theorem State.withStatus_cfg (s : State) (a : Nat) (f : Bool) : (s.withStatus a f).cfg = s.cfg := rfl
@[simp] theorem State.withStatus_ptr (s : State) (a : Nat) (f : Bool) : (s.withStatus a f).ptr = s.ptr := rfl

/-- A master data byte is accepted alike whatever the status: where it counts, it counts from the tally it finds. -/
theorem State.acceptByte_withStatus (s : State) (p : Nat) (d : Byte) (a : Nat) (f : Bool) :
    ∃ x, (s.withStatus a f).acceptByte p d = (s.acceptByte p d).withStatus x f := by
  unfold State.acceptByte
  rw [State.withStatus_cfg]
  split
  · exact ⟨countUp s.cfg a, rfl⟩
  · exact ⟨a, rfl⟩

/-- No engine step reads `StopFlag`, and none reads the tally but to write it (R20). -/
theorem overflowStep_withStatus (a : Nat) (f : Bool) (h : overflowStep s = .next t) :
    ∃ x, overflowStep (s.withStatus a f) = .next (t.withStatus x f) := by
  have same_row : overflowStep (s.withStatus a f) =
      runStep (decodeStep s.cfg s.phase s.engineState s.shiftReg) (s.withStatus a f) := rfl
  rw [same_row]
  unfold overflowStep at h
  cases hd : decodeStep s.cfg s.phase s.engineState s.shiftReg <;> rw [hd] at h <;> simp only [runStep] at h ⊢
  case wr d =>
    obtain ⟨hp, rfl⟩ := atPointer_next.1 h
    obtain ⟨x, hx⟩ := s.acceptByte_withStatus s.ptr.toNat d a f
    refine ⟨x, atPointer_next.2 ⟨hp, ?_⟩⟩
    rw [State.withStatus_ptr, hx]
    rfl
  case rdAck =>
    obtain ⟨hp, rfl⟩ := atPointer_next.1 h
    exact ⟨a, atPointer_of_lt hp⟩
  all_goals cases h; exact ⟨a, rfl⟩

/-- A `BIT` puts out the same wire value and does the same whatever the status, but to the tally. -/
theorem execBit_withStatus (m : Level) (a : Nat) (f : Bool) (h : execBit m s = .next t) :
    ∃ x, execBit m (s.withStatus a f) = .next (t.withStatus x f) := by
  rcases execBit_cases m s with ⟨hb, he⟩ | ⟨hb, he⟩ | ⟨hb, he⟩ <;> rw [he] at h
  · cases h
    exact ⟨a, execBit_disarmed (s := s.withStatus a f) m hb⟩
  · cases h
    exact ⟨a, execBit_counting (s := s.withStatus a f) m hb⟩
  · rw [execBit_completing (s := s.withStatus a f) m hb]
    exact overflowStep_withStatus a f h

end Sys2Proof.Machine

open Sys2Proof Sys2Proof.Machine

/-- Settles O49: each of the three operations puts out a function of the registers, the masks, `Tally` and `StopFlag`. -/
theorem hostLearnsNothingOfTheEngine : Obligations.HostLearnsNothingOfTheEngine := by
  intro s u t v r hr hcfg hregs htally hflag hs hu
  rcases hr with ⟨i, rfl⟩ | ⟨i, rfl⟩ | rfl
  · rw [execRegRead_output hs, execRegRead_output hu]
    simp only [State.readReg, hcfg, hregs]
  · rw [execMaskRead_output hs, execMaskRead_output hu, hcfg]
  · rw [execCheckStop_output hs, execCheckStop_output hu, htally, hflag]

/-- Settles O50, by the three cases of `BIT` and, where it completes a unit, the engine steps. -/
theorem busLearnsNothingOfTallyAndStopFlag : Obligations.BusLearnsNothingOfTallyAndStopFlag :=
  fun _ _ m a f h => execBit_withStatus m a f h

/-- Settles O8: the three cases of a step, and the selection row by row. -/
theorem stepRunsTheRequestedOperation : Obligations.StepRunsTheRequestedOperation := by
  intro s rest
  exact ⟨fun _ => step_request, fun _ => step_badConfiguration, step_idle, rfl, rfl, rfl, rfl,
    fun _ => rfl, fun _ => rfl, fun _ _ => rfl, fun _ => rfl, rfl, rfl⟩

end

section
/-!
PROOFS. The state and its changes (10_state): the values after reset, the invariant that every step keeps (section 7), and
for each element of state the operations that can write it (section 5).
-/

namespace Sys2Proof.Machine

variable {s t : State}

/-! The answer to a request (R4, R5, R70), said once for all the statements over every step. -/

/-- `s` with one bit time of a unit counted: the wire value put out and shifted in (R82). -/
abbrev State.counted (s : State) (m : Level) : State :=
  (s.emit (some (.wire (s.wireLevel m)))).countBit (s.wireLevel m)

/-- `s.Answers r t`: the operation that the request `r` selects in `s` leads to `t`. `CHECK_STOP` has a case for each of its
rows and `BIT` one for each range of `BitCount`. -/
inductive State.Answers (s : State) : Request → State → Prop where
  | start : s.Answers .start (s.awaitAddress.emit none)
  | stop : s.Answers .stop ({ s with stopFlag := true }.emit none)
  | bitDisarmed (m : Level) (hb : s.bitCount = 0) : s.Answers (.bit m) (s.emit (some (.wire (s.wireLevel m))))
  | bitCounting (m : Level) (hb : 2 ≤ s.bitCount) : s.Answers (.bit m) (s.counted m)
  | bitCompleting (m : Level) (t : State) (hb : s.bitCount = 1) (ho : overflowStep (s.counted m) = .next t) :
      s.Answers (.bit m) t
  | regRead (i : Nat) (hi : i < s.cfg.n) : s.Answers (.regRead i) (s.emit (some (.byte (s.readReg i))))
  | regWriteRaw (i : Nat) (v : Byte) (hi : i < s.cfg.n) : s.Answers (.regWriteRaw i v) ((s.writeReg i v).emit none)
  | maskRead (i : Nat) (hi : i < s.cfg.n) : s.Answers (.maskRead i) (s.emit (some (.byte (maskAt s.cfg i))))
  | checkStopIdle (hf : s.stopFlag = false) : s.Answers .checkStop (s.emit (some (.count 0)))
  | checkStopDone (hf : s.stopFlag = true) : s.Answers .checkStop ({ s with
      stopFlag := false, engineState := .addrMatch, ptr := if s.tally ≠ 0 then 0#8 else s.ptr, tally := 0
      }.emit (some (.count s.tally)))
  | init : s.Answers .init (s.awaitAddress.emit none)
  | reset : s.Answers .reset { State.resetOf s.cfg with
      shiftReg := Config.freeByte s.freshCount, freshCount := s.freshCount + 1, pending := s.pending }

theorem execBit_answers {m : Level} (h : execBit m s = .next t) : s.Answers (.bit m) t := by
  rcases execBit_cases m s with ⟨hb, he⟩ | ⟨hb, he⟩ | ⟨hb, he⟩ <;> rw [he] at h
  · cases h; exact .bitDisarmed m hb
  · cases h; exact .bitCounting m hb
  · exact .bitCompleting m t hb h

/-- The operation selected leads nowhere else. -/
theorem selected_answers {r : Request} (h : exec (selectRequest s.stopFlag r) s = .next t) : s.Answers r t := by
  cases r
  case start => cases h; exact .start
  case stop => cases h; exact .stop
  case bit m => exact execBit_answers h
  case regRead i => obtain ⟨hi, rfl⟩ := atIndex_next.1 h; exact .regRead i hi
  case regWriteRaw i v => obtain ⟨hi, rfl⟩ := atIndex_next.1 h; exact .regWriteRaw i v hi
  case maskRead i => obtain ⟨hi, rfl⟩ := atIndex_next.1 h; exact .maskRead i hi
  case checkStop =>
    cases hf : s.stopFlag <;> rw [hf] at h
    case false => cases h; exact .checkStopIdle hf
    case true => cases h; exact .checkStopDone hf
  case init => cases h; exact .init
  case reset => cases h; exact .reset

/-- A step that answers a next state was idle, or took the oldest request and answered it. -/
theorem step_answers (h : step s = .next t) :
    t = s ∨ ∃ r rest, s.pending.head? = some r ∧ ({ s with pending := rest } : State).Answers r t := by
  rcases step_cases h with ⟨-, ht⟩ | ⟨r, rest, hp, -, hx⟩
  · exact .inl ht
  · exact .inr ⟨r, rest, by rw [hp]; rfl, selected_answers (s := { s with pending := rest }) hx⟩

/-! What the decoder's answer says of the mode and the byte (R71). -/

theorem mode_of_decodeStep_wr {c : Config} {ph : Phase} {st : EngineState} {b d : Byte}
    (h : decodeStep c ph st b = .wr d) : ph = .preAck ∧ st = .masterWrite := by
  cases ph <;> cases st <;> simp only [decodeStep, decodePhase1, decodePhase2] at h
  case preAck.masterWrite => exact ⟨rfl, rfl⟩
  case preAck.addrMatch => split at h <;> [cases h; (split at h <;> cases h)]
  case preAck.regAddr => split at h <;> cases h
  case postAck.masterRead => split at h <;> cases h
  all_goals cases h

/-- Only an offset inside the register file is acknowledged (R94, R95). -/
theorem lt_of_decodeStep_regAck {c : Config} {ph : Phase} {st : EngineState} {b o : Byte}
    (h : decodeStep c ph st b = .regAck o) : o.toNat < c.n := by
  cases ph <;> cases st <;> simp only [decodeStep, decodePhase1, decodePhase2] at h
  case preAck.regAddr =>
    split at h
    · cases h
    · rename_i hr
      cases h
      simpa [offsetInRange] using hr
  case preAck.addrMatch => split at h <;> [cases h; (split at h <;> cases h)]
  case postAck.masterRead => split at h <;> cases h
  all_goals cases h

/-! What the overflow step does to the registers, the tally and the counter. -/

/-- The overflow step writes the registers and the tally only as `P1.WR`, which accepts the byte at `Ptr` (R20). -/
theorem overflowStep_regs_tally (h : overflowStep s = .next t) :
    (t.regs = s.regs ∧ t.tally = s.tally) ∨
    (s.phase = .preAck ∧ s.engineState = .masterWrite ∧ ∃ d, t.regs = (s.acceptByte s.ptr.toNat d).regs ∧
      t.tally = (s.acceptByte s.ptr.toNat d).tally) := by
  unfold overflowStep at h
  cases hd : decodeStep s.cfg s.phase s.engineState s.shiftReg <;> rw [hd] at h <;> simp only [runStep] at h
  case wr d =>
    obtain ⟨hph, hst⟩ := mode_of_decodeStep_wr hd
    obtain ⟨-, rfl⟩ := atPointer_next.1 h
    exact .inr ⟨hph, hst, d, rfl, rfl⟩
  case rdAck => obtain ⟨-, rfl⟩ := atPointer_next.1 h; exact .inl ⟨rfl, rfl⟩
  all_goals cases h; exact .inl ⟨rfl, rfl⟩

/-- Where the mask is 0 a master data byte changes nothing (R96). -/
theorem State.acceptByte_unmasked {p : Nat} (d : Byte) (h : maskAt s.cfg p = 0#8) : s.acceptByte p d = s := by
  simp [State.acceptByte, h]

/-- If the overflow step changes a register, it accepted a byte there through a mask that is not 0. -/
theorem overflowStep_readReg {j : Nat} (h : overflowStep s = .next t) (hj : t.readReg j ≠ s.readReg j) :
    s.phase = .preAck ∧ s.engineState = .masterWrite ∧ s.ptr.toNat = j ∧ maskAt s.cfg j ≠ 0#8 := by
  obtain ⟨hcfg, -⟩ := overflowStep_frame h
  rcases overflowStep_regs_tally h with ⟨hregs, -⟩ | ⟨hph, hst, d, hregs, -⟩
  · simp [State.readReg, hcfg, hregs] at hj
  · have accepted : t.readReg j = (s.acceptByte s.ptr.toNat d).readReg j := by
      simp only [State.readReg, hcfg, hregs, State.acceptByte_cfg]
    rw [accepted] at hj
    have hp : s.ptr.toNat = j := by
      by_contra hp
      exact hj (State.readReg_acceptByte_other d (Ne.symm hp))
    refine ⟨hph, hst, hp, fun hm => hj ?_⟩
    rw [hp, State.acceptByte_unmasked d hm]

/-- If the overflow step changes the tally, it counted a byte accepted through a mask that is not 0. -/
theorem overflowStep_tally (h : overflowStep s = .next t) (ht : t.tally ≠ s.tally) :
    s.phase = .preAck ∧ s.engineState = .masterWrite ∧ maskAt s.cfg s.ptr.toNat ≠ 0#8 ∧
      t.tally = countUp s.cfg s.tally := by
  rcases overflowStep_regs_tally h with ⟨-, hkept⟩ | ⟨hph, hst, d, -, hcount⟩
  · exact absurd hkept ht
  · have hm : maskAt s.cfg s.ptr.toNat ≠ 0#8 := fun hm => by
      rw [State.acceptByte_unmasked d hm] at hcount
      exact ht hcount
    rw [State.acceptByte_tally, if_pos hm] at hcount
    exact ⟨hph, hst, hm, hcount⟩

/-- A tally in its range goes up by one or saturates (R14). -/
theorem countUp_eq_or {c : Config} {n : Nat} (h : n ≤ tallyMax c) : countUp c n = n + 1 ∨ countUp c n = n := by
  unfold countUp
  omega

/-! The invariant (section 7), in the part that a unit's last bit keeps and the part that the overflow step restores. -/

/-- The part of the invariant about what the block stores. -/
structure State.StorageInv (s : State) : Prop where
  cfg_wf : s.cfg.wf
  regs_wf : Memory.wf s.cfg s.regs
  ptr_lt : s.ptr.toNat < s.cfg.n
  tally_le : s.tally ≤ tallyMax s.cfg
  regAddr_ptr : s.engineState = .regAddr → s.ptr = 0#8

/-- The part of the invariant about the unit being counted (R17, R27). -/
structure State.CounterInv (s : State) : Prop where
  bitCount_le : s.bitCount ≤ 8
  postAck_one : s.phase = .postAck → s.bitCount = 1
  disarmed_listens : s.bitCount = 0 → s.dir = .listening ∧ s.phase = .preAck

theorem State.inv_iff : s.Inv ↔ s.StorageInv ∧ s.CounterInv :=
  ⟨fun hi => ⟨{ hi with }, { hi with }⟩, fun ⟨hs, hc⟩ => { hs, hc with }⟩

theorem State.Inv.storage (hi : s.Inv) : s.StorageInv := (State.inv_iff.1 hi).1

/-- Index 0 is inside every register file. -/
theorem zero_lt_n {c : Config} (hc : c.wf) : (0#8 : Byte).toNat < c.n := hc.1

/-- The storage part speaks of the elements named here only, and of the engine state only in `RegAddr`. -/
theorem State.StorageInv.congr (hi : s.StorageInv) (hcfg : t.cfg = s.cfg) (hregs : t.regs = s.regs)
    (hptr : t.ptr = s.ptr) (htally : t.tally = s.tally)
    (hst : t.engineState = .regAddr → s.engineState = .regAddr) : t.StorageInv where
  cfg_wf := hcfg ▸ hi.cfg_wf
  regs_wf := hcfg ▸ hregs ▸ hi.regs_wf
  ptr_lt := hcfg ▸ hptr ▸ hi.ptr_lt
  tally_le := hcfg ▸ htally ▸ hi.tally_le
  regAddr_ptr := fun h => hptr ▸ hi.regAddr_ptr (hst h)

theorem resetOf_inv {c : Config} (hc : c.wf) : (State.resetOf c).Inv where
  cfg_wf := hc
  regs_wf := Memory.nil_wf
  ptr_lt := zero_lt_n hc
  tally_le := Nat.zero_le _
  bitCount_le := Nat.le_refl 8
  postAck_one := nofun
  disarmed_listens := nofun
  regAddr_ptr := nofun

/-- Every engine step arms the counter for the next unit or lets go of the bus (R83, R90). -/
theorem overflowStep_counter (h : overflowStep s = .next t) : t.CounterInv := by
  have ack {u : State} (hb : u.bitCount = 1) : u.CounterInv := ⟨by omega, fun _ => hb, by omega⟩
  have data {u : State} (hb : u.bitCount = 8) (hp : u.phase = .preAck) : u.CounterInv :=
    ⟨by omega, by simp [hp], by omega⟩
  have off {u : State} (hb : u.bitCount = 0) (hp : u.phase = .preAck) (hd : u.dir = .listening) : u.CounterInv :=
    ⟨by omega, by simp [hp], fun _ => ⟨hd, hp⟩⟩
  unfold overflowStep at h
  cases hd : decodeStep s.cfg s.phase s.engineState s.shiftReg <;> rw [hd] at h <;> simp only [runStep] at h
  case addrRd | addrWr | regAck | rd => cases h; exact ack rfl
  case wr => obtain ⟨-, rfl⟩ := atPointer_next.1 h; exact ack rfl
  case rdAck => obtain ⟨-, rfl⟩ := atPointer_next.1 h; exact data rfl rfl
  case other => cases h; exact data rfl rfl
  case addrNak | regNak | defensive | rdNak => cases h; exact off rfl rfl rfl

/-- Every engine step keeps the storage part: the pointer advances modulo `N`, is loaded in range or is 0. -/
theorem overflowStep_storage (hi : s.StorageInv) (h : overflowStep s = .next t) : t.StorageInv := by
  have advance_lt : (nextIndex s.cfg.n s.ptr).toNat < s.cfg.n :=
    nextIndex_lt s.ptr hi.cfg_wf.1 hi.cfg_wf.2.1
  unfold overflowStep at h
  cases hd : decodeStep s.cfg s.phase s.engineState s.shiftReg <;> rw [hd] at h <;> simp only [runStep] at h
  case addrNak | addrRd | regNak => cases h; exact hi.congr rfl rfl rfl rfl nofun
  case rd | defensive | other => cases h; exact hi.congr rfl rfl rfl rfl id
  case addrWr => cases h; exact { hi with ptr_lt := zero_lt_n hi.cfg_wf, regAddr_ptr := fun _ => rfl }
  case rdNak => cases h; exact { hi with ptr_lt := zero_lt_n hi.cfg_wf, regAddr_ptr := nofun }
  case regAck => cases h; exact { hi with ptr_lt := lt_of_decodeStep_regAck hd, regAddr_ptr := nofun }
  case rdAck =>
    obtain ⟨-, rfl⟩ := atPointer_next.1 h
    exact { hi with ptr_lt := advance_lt, regAddr_ptr := nofun }
  case wr d =>
    obtain ⟨hp, rfl⟩ := atPointer_next.1 h
    have tally_le : (s.acceptByte s.ptr.toNat d).tally ≤ tallyMax s.cfg := by
      rw [State.acceptByte_tally]
      split
      · exact countUp_le _ _
      · exact hi.tally_le
    exact {
      cfg_wf := by simpa using hi.cfg_wf
      regs_wf := by simpa using State.acceptByte_wf d hi.regs_wf hp
      ptr_lt := by simpa using advance_lt
      tally_le := by simpa using tally_le
      regAddr_ptr := nofun }

/-- The invariant does not speak of `ShiftReg`, `StopFlag` or the model's own fields. -/
theorem State.Inv.ignores (hi : s.Inv) (b : Byte) (f : Bool) (rs : List Request) (o : Option Output) (k : Nat) :
    ({ s with shiftReg := b, stopFlag := f, pending := rs, output := o, freshCount := k } : State).Inv :=
  { hi with }

/-- Counting a bit that is not the last of its unit: such a unit is a data unit. -/
theorem State.Inv.counted (hi : s.Inv) (m : Level) (hb : 2 ≤ s.bitCount) : (s.counted m).Inv where
  __ := hi
  bitCount_le := (Nat.sub_le _ _).trans hi.bitCount_le
  postAck_one := fun h => by have := hi.postAck_one h; omega
  disarmed_listens := fun h => by simp only [State.countBit_bitCount, State.emit_bitCount] at h; omega

theorem State.Inv.awaitAddress (hi : s.Inv) : s.awaitAddress.Inv :=
  { hi with bitCount_le := Nat.le_refl 8, postAck_one := nofun, disarmed_listens := nofun, regAddr_ptr := nofun }

/-- The answer to any request keeps the invariant. -/
theorem State.Answers.inv {r : Request} (h : s.Answers r t) (hi : s.Inv) : t.Inv := by
  cases h with
  | start => exact hi.awaitAddress.ignores _ _ _ _ _
  | stop => exact hi.ignores _ _ _ _ _
  | bitDisarmed m hb => exact hi.ignores _ _ _ _ _
  | bitCounting m hb => exact hi.counted m hb
  | bitCompleting m _ hb ho =>
    have counted_storage : (s.counted m).StorageInv := hi.storage.congr rfl rfl rfl rfl id
    exact State.inv_iff.2 ⟨overflowStep_storage counted_storage ho, overflowStep_counter ho⟩
  | regRead i hlt => exact hi.ignores _ _ _ _ _
  | regWriteRaw i v hlt => exact { hi with regs_wf := Memory.write_wf hi.regs_wf hlt }
  | maskRead i hlt => exact hi.ignores _ _ _ _ _
  | checkStopIdle hf => exact hi.ignores _ _ _ _ _
  | checkStopDone hf =>
    have ptr_lt : (if s.tally ≠ 0 then 0#8 else s.ptr).toNat < s.cfg.n := by
      split
      · exact zero_lt_n hi.cfg_wf
      · exact hi.ptr_lt
    exact { hi with ptr_lt := ptr_lt, tally_le := Nat.zero_le _, regAddr_ptr := nofun }
  | init => exact hi.awaitAddress.ignores _ _ _ _ _
  | reset => exact (resetOf_inv hi.cfg_wf).ignores _ _ _ _ _

/-! Who can write an element (section 5): what the request was and what was counted, if an answer changes it. -/

/-- The answer that changes a register. -/
theorem State.Answers.readReg_changed {r : Request} {j : Nat} (h : s.Answers r t) (hj : t.readReg j ≠ s.readReg j) :
    r = .reset ∨ (∃ v, r = .regWriteRaw j v) ∨ ((∃ m, r = .bit m) ∧ s.bitCount = 1 ∧ s.phase = .preAck ∧
      s.engineState = .masterWrite ∧ s.ptr.toNat = j ∧ maskAt s.cfg j ≠ 0#8) := by
  cases h with
  | reset => exact .inl rfl
  | regWriteRaw i v _ =>
    have hij : i = j := by
      by_contra hij
      exact hj (State.readReg_writeReg_other (s := s) (Ne.symm hij))
    exact .inr (.inl ⟨v, by rw [hij]⟩)
  | bitCompleting m _ hb ho => exact .inr (.inr ⟨⟨m, rfl⟩, hb, overflowStep_readReg (s := s.counted m) ho hj⟩)
  | start | stop | bitDisarmed | bitCounting | regRead | maskRead | checkStopIdle | checkStopDone | init =>
    exact absurd rfl hj

/-- The answer that moves the pointer. -/
theorem State.Answers.ptr_changed {r : Request} (h : s.Answers r t) (hp : t.ptr ≠ s.ptr) :
    (r = .reset ∧ t.ptr = 0#8) ∨ (r = .checkStop ∧ s.stopFlag = true ∧ s.tally ≠ 0 ∧ t.ptr = 0#8) ∨
    ∃ m, r = .bit m ∧ s.bitCount = 1 ∧ overflowStep (s.counted m) = .next t := by
  cases h with
  | reset => exact .inl ⟨rfl, rfl⟩
  | checkStopDone hf =>
    have ht : s.tally ≠ 0 := fun ht => hp (if_neg (not_not.2 ht))
    exact .inr (.inl ⟨rfl, hf, ht, if_pos ht⟩)
  | bitCompleting m _ hb ho => exact .inr (.inr ⟨m, rfl, hb, ho⟩)
  | start | stop | bitDisarmed | bitCounting | regRead | regWriteRaw | maskRead | checkStopIdle | init =>
    exact absurd rfl hp

/-- The engine step that moves the pointer, and to what (R13). -/
theorem overflowStep_ptr_changed (h : overflowStep s = .next t) (hp : t.ptr ≠ s.ptr) :
    ∃ e, decodeStep s.cfg s.phase s.engineState s.shiftReg = e ∧
      ((∃ a, e = .addrWr a ∧ t.ptr = 0#8) ∨ (∃ o, e = .regAck o ∧ t.ptr = o) ∨
        (∃ d, e = .wr d ∧ t.ptr = nextIndex s.cfg.n s.ptr) ∨ (e = .rdAck ∧ t.ptr = nextIndex s.cfg.n s.ptr) ∨
        (e = .rdNak ∧ t.ptr = 0#8)) := by
  have hptr := overflowStep_ptr h
  refine ⟨_, rfl, ?_⟩
  cases hd : decodeStep s.cfg s.phase s.engineState s.shiftReg <;> rw [hd] at hptr
  case addrWr a => exact .inl ⟨a, rfl, hptr⟩
  case regAck o => exact .inr (.inl ⟨o, rfl, hptr⟩)
  case wr d => exact .inr (.inr (.inl ⟨d, rfl, hptr⟩))
  case rdAck => exact .inr (.inr (.inr (.inl ⟨rfl, hptr⟩)))
  case rdNak => exact .inr (.inr (.inr (.inr ⟨rfl, hptr⟩)))
  case addrNak | addrRd | regNak | rd | defensive | other => exact absurd hptr hp

/-- The answer that changes the stop flag. -/
theorem State.Answers.stopFlag_changed {r : Request} (h : s.Answers r t) (hf : t.stopFlag ≠ s.stopFlag) :
    (r = .stop ∧ t.stopFlag = true) ∨ ((r = .checkStop ∨ r = .reset) ∧ t.stopFlag = false) := by
  cases h with
  | stop => exact .inl ⟨rfl, rfl⟩
  | checkStopDone => exact .inr ⟨.inl rfl, rfl⟩
  | reset => exact .inr ⟨.inr rfl, rfl⟩
  | bitCompleting m _ _ ho =>
    obtain ⟨-, kept, -⟩ := overflowStep_frame ho
    exact absurd kept hf
  | start | bitDisarmed | bitCounting | regRead | regWriteRaw | maskRead | checkStopIdle | init => exact absurd rfl hf

/-- The answer that changes the tally. -/
theorem State.Answers.tally_changed {r : Request} (h : s.Answers r t) (ht : t.tally ≠ s.tally) :
    ((∃ m, r = .bit m) ∧ s.bitCount = 1 ∧ s.phase = .preAck ∧ s.engineState = .masterWrite ∧
      maskAt s.cfg s.ptr.toNat ≠ 0#8 ∧ t.tally = countUp s.cfg s.tally) ∨
    ((r = .reset ∨ r = .checkStop ∧ s.stopFlag = true) ∧ t.tally = 0) := by
  cases h with
  | reset => exact .inr ⟨.inl rfl, rfl⟩
  | checkStopDone hf => exact .inr ⟨.inr ⟨rfl, hf⟩, rfl⟩
  | bitCompleting m _ hb ho => exact .inl ⟨⟨m, rfl⟩, hb, overflowStep_tally (s := s.counted m) ho ht⟩
  | start | stop | bitDisarmed | bitCounting | regRead | regWriteRaw | maskRead | checkStopIdle | init =>
    exact absurd rfl ht

/-! What no operation writes (R11, log 5). -/

theorem execBit_cfg_pending {m : Level} (h : execBit m s = .next t) : t.cfg = s.cfg ∧ t.pending = s.pending := by
  rcases execBit_cases m s with ⟨-, he⟩ | ⟨-, he⟩ | ⟨-, he⟩ <;> rw [he] at h
  · cases h; exact ⟨rfl, rfl⟩
  · cases h; exact ⟨rfl, rfl⟩
  · obtain ⟨hcfg, -, hpending, -⟩ := overflowStep_frame h
    exact ⟨hcfg, hpending⟩

/-! The line (R18). -/

theorem msb_zero_iff (b : Byte) : b.extractLsb' 7 1 = 0#1 ↔ b.toNat < 128 := by
  rw [BitVec.toNat_eq, BitVec.extractLsb'_toNat, Nat.shiftRight_eq_div_pow]
  have := b.isLt
  simp only [BitVec.toNat_ofNat]
  omega

theorem State.contribution_driving (h : s.dir = .driving) : s.contribution = s.shiftReg.extractLsb' 7 1 := by
  simp only [State.contribution, h]

theorem State.contribution_listening (h : s.dir = .listening) : s.contribution = 1#1 := by
  simp only [State.contribution, h]

/-- The block pulls the line low exactly when it drives a 0. -/
theorem State.contribution_zero_iff : s.contribution = 0#1 ↔ s.dir = .driving ∧ s.shiftReg.toNat < 128 := by
  cases hd : s.dir
  case driving => simp [State.contribution_driving hd, msb_zero_iff]
  case listening => simp [State.contribution_listening hd]

/-- Where the direction table lets the block drive: its own ACK after the units of three engine states, or a read byte. -/
theorem State.FollowsLineTable.driving_cases (h : s.FollowsLineTable) (hd : s.dir = .driving) :
    (s.phase = .postAck ∧ s.shiftReg = 0#8 ∧ s.engineState ≠ .addrMatch) ∨
    (s.phase = .preAck ∧ s.engineState = .masterRead) := by
  unfold State.FollowsLineTable at h
  cases hst : s.engineState <;> cases hph : s.phase <;> rw [hst, hph] at h
  case addrMatch.preAck => cases hd.symm.trans h
  case addrMatch.postAck => exact h.elim
  case regAddr.preAck | masterWrite.preAck => cases hd.symm.trans h.1
  case regAddr.postAck | masterWrite.postAck => exact .inl ⟨rfl, h.2, nofun⟩
  case masterRead.preAck => exact .inr ⟨rfl, rfl⟩
  case masterRead.postAck =>
    rcases h with listening | ⟨-, h0⟩
    · cases hd.symm.trans listening
    · exact .inl ⟨rfl, h0, nofun⟩

/-! A shift register that eight bits overwrite (R16). -/

/-- After a bit is shifted in, the bits that the rest of the unit shifts out no longer matter. -/
theorem shiftIn_shiftLeft (x : Byte) (m : Level) (k : Nat) :
    shiftIn x m <<< k = x <<< (k + 1) ||| m.setWidth 8 <<< k := by
  unfold shiftIn
  rw [BitVec.shiftLeft_or_distrib, Nat.add_comm, BitVec.shiftLeft_add]

/-- Steps that agree on the same requests begin traces that agree. -/
theorem outputs_congr {u : State} (n : Nat) (h : step s = step u) (hp : s.pending = u.pending) :
    outputs (n + 1) s = outputs (n + 1) u := by
  simp only [outputs, h, stepOutputs, hp]

/-- `s` with the byte `x` in `ShiftReg` and the requests `rs` to come. -/
def State.withUnit (s : State) (x : Byte) (rs : List Request) : State := { s with shiftReg := x, pending := rs }

/-- `s` after a bit at level `m` of a unit it listens to, but for `ShiftReg`. -/
def State.heard (s : State) (m : Level) : State := { s with bitCount := s.bitCount - 1, output := some (.wire m) }

theorem step_withUnit {x : Byte} {m : Level} {rs : List Request} (hc : s.cfg.wf) :
    step (s.withUnit x (.bit m :: rs)) = execBit m (s.withUnit x rs) :=
  step_bit { s with shiftReg := x } m rs hc

/-- While the block listens the wire value is the master's level, whatever `ShiftReg` holds. -/
theorem State.counted_withUnit (x : Byte) (m : Level) (rs : List Request) (hd : s.dir = .listening) :
    (s.withUnit x rs).counted m = (s.heard m).withUnit (shiftIn x m) rs := by
  have wire : (s.withUnit x rs).wireLevel m = m := State.wireLevel_listening m hd
  rw [State.counted, wire]
  rfl

theorem step_withUnit_counting {x : Byte} {m : Level} {rs : List Request} (hc : s.cfg.wf) (hd : s.dir = .listening)
    (hb : 2 ≤ s.bitCount) : step (s.withUnit x (.bit m :: rs)) = .next ((s.heard m).withUnit (shiftIn x m) rs) := by
  rw [step_withUnit hc, execBit_counting (s := s.withUnit x rs) m hb, ← State.counted_withUnit x m rs hd]

theorem step_withUnit_completing {x : Byte} {m : Level} {rs : List Request} (hc : s.cfg.wf) (hd : s.dir = .listening)
    (hb : s.bitCount = 1) :
    step (s.withUnit x (.bit m :: rs)) = overflowStep ((s.heard m).withUnit (shiftIn x m) rs) := by
  rw [step_withUnit hc, execBit_completing (s := s.withUnit x rs) m hb, ← State.counted_withUnit x m rs hd]

/-- While the block listens, the rest of a unit runs alike from two shift registers that agree on the bits it keeps. -/
theorem listening_unit_congr (ms : List Level) (rest : List Request) {s : State} {x y : Byte} (hc : s.cfg.wf)
    (hd : s.dir = .listening) (hb : s.bitCount = ms.length) (hxy : x <<< ms.length = y <<< ms.length) :
    runSteps ms.length (s.withUnit x (ms.map .bit ++ rest)) = runSteps ms.length (s.withUnit y (ms.map .bit ++ rest)) ∧
    outputs ms.length (s.withUnit x (ms.map .bit ++ rest)) = outputs ms.length (s.withUnit y (ms.map .bit ++ rest)) := by
  induction ms generalizing s x y with
  | nil =>
    obtain rfl : x = y := by simpa using hxy
    exact ⟨rfl, rfl⟩
  | cons m ms ih =>
    have shifted : shiftIn x m <<< ms.length = shiftIn y m <<< ms.length := by
      rw [shiftIn_shiftLeft, shiftIn_shiftLeft, ← List.length_cons (a := m), hxy]
    cases ms with
    | nil =>
      have same_byte : shiftIn x m = shiftIn y m := by simpa using shifted
      have same_step : step (s.withUnit x (.bit m :: rest)) = step (s.withUnit y (.bit m :: rest)) := by
        rw [step_withUnit_completing hc hd hb, step_withUnit_completing hc hd hb, same_byte]
      exact ⟨runSteps_one.trans (same_step.trans runSteps_one.symm), outputs_congr 0 same_step rfl⟩
    | cons m' ms =>
      have unfinished : 2 ≤ s.bitCount := by simp [hb]
      have next_bit (z : Byte) :=
        step_withUnit_counting (x := z) (m := m) (rs := (m' :: ms).map .bit ++ rest) hc hd unfinished
      obtain ⟨same_run, same_trace⟩ := ih (s := s.heard m) hc hd (by simp [State.heard, hb]) shifted
      constructor
      · exact (runSteps_next _ (next_bit x)).trans (same_run.trans (runSteps_next _ (next_bit y)).symm)
      · have trace (z : Byte) := outputs_next (m' :: ms).length (by simp [State.withUnit]) (next_bit z)
        exact (trace x).trans ((congrArg _ same_trace).trans (trace y).symm)

end Sys2Proof.Machine

open Sys2Proof Sys2Proof.Machine

/-- Settles O38: the answer to any request keeps the invariant. -/
theorem everyStepKeepsTheInvariant : Obligations.EveryStepKeepsTheInvariant := by
  intro s t hi h
  rcases step_answers h with rfl | ⟨r, rest, -, hr⟩
  · exact hi
  · exact hr.inv (hi.ignores _ _ rest _ _)

/-- Settles O44, by the answer that changes a register. -/
theorem registersChangeOnlyByTheirThreeWriters : Obligations.RegistersChangeOnlyByTheirThreeWriters := by
  intro s t j h hj
  rcases step_answers h with rfl | ⟨r, rest, hp, hr⟩
  · exact absurd rfl hj
  · simpa [hp] using hr.readReg_changed hj

/-- Settles O40, operation by operation. -/
theorem configurationNeverChanges : Obligations.ConfigurationNeverChanges := by
  intro i s t h
  cases i
  case bit m => exact execBit_cfg_pending h
  case p1Wr d => rw [exec_p1Wr] at h; obtain ⟨-, rfl⟩ := atPointer_next.1 h; simp
  case p2RdAck => rw [exec_p2RdAck] at h; obtain ⟨-, rfl⟩ := atPointer_next.1 h; exact ⟨rfl, rfl⟩
  case regRead | regWriteRaw | maskRead => obtain ⟨-, rfl⟩ := atIndex_next.1 h; exact ⟨rfl, rfl⟩
  all_goals cases h; exact ⟨rfl, rfl⟩

/-- Settles O43, by R18's output and the rows of the direction table in which the block drives. -/
theorem lineIsPulledLowOnlyToAckOrSendAZero : Obligations.LineIsPulledLowOnlyToAckOrSendAZero :=
  fun _ => ⟨State.contribution_zero_iff, fun ht hc => ht.driving_cases (State.contribution_zero_iff.1 hc).1⟩

/-- Settles O46, by the answer and the engine step that move the pointer. -/
theorem pointerMovesOnlyByItsWriters : Obligations.PointerMovesOnlyByItsWriters := by
  intro s t h hptr
  rcases step_answers h with rfl | ⟨r, rest, hp, hr⟩
  · exact absurd rfl hptr
  · rcases hr.ptr_changed hptr with ⟨rfl, h0⟩ | ⟨rfl, hf, ht, h0⟩ | ⟨m, rfl, hb, ho⟩
    · exact .inl ⟨hp, h0⟩
    · exact .inr (.inl ⟨hp, hf, ht, h0⟩)
    · obtain ⟨e, hd, he⟩ := overflowStep_ptr_changed ho hptr
      exact .inr (.inr ⟨m, e, hp, hb, hd, he⟩)

/-- Settles O47, by the answer that changes the stop flag. -/
theorem stopFlagIsSticky : Obligations.StopFlagIsSticky := by
  intro s t h
  rcases step_answers h with rfl | ⟨r, rest, hp, hr⟩
  · simp +contextual
  · refine ⟨fun hs ht => ?_, fun hs ht => ?_⟩
    · rcases hr.stopFlag_changed (by simp [hs, ht]) with ⟨rfl, -⟩ | ⟨-, hf⟩
      · exact hp
      · simp [ht] at hf
    · rcases hr.stopFlag_changed (by simp [hs, ht]) with ⟨-, hf⟩ | ⟨hr', -⟩
      · simp [ht] at hf
      · simpa [hp] using hr'

/-- Settles O48, by the answer that changes the tally and what `countUp` does in range. -/
theorem tallyCountsAcceptedBytesOnly : Obligations.TallyCountsAcceptedBytesOnly := by
  intro s t hi h
  rcases step_answers h with rfl | ⟨r, rest, hp, hr⟩
  · simp
  · have count := countUp_eq_or hi.tally_le
    refine ⟨fun hlt => ?_, fun hlt => ?_⟩
    · rcases hr.tally_changed (Nat.ne_of_gt hlt) with ⟨hm, hb, hph, hst, hmask, hc⟩ | ⟨-, h0⟩
      · refine ⟨by simpa [hp] using hm, hb, hph, hst, hmask, ?_⟩
        simp only at hc
        omega
      · omega
    · rcases hr.tally_changed (Nat.ne_of_lt hlt) with ⟨-, -, -, -, -, hc⟩ | ⟨hw, h0⟩
      · simp only at hc
        omega
      · exact ⟨h0, by simpa [hp] using hw⟩

/-- Settles O51: eight bits shift out whatever the shift register held. -/
theorem shiftRegBeforeTheFirstByteIsUnobservable : Obligations.ShiftRegBeforeTheFirstByteIsUnobservable := by
  intro s x y ms rest hc hd _ hb hlen
  have gone (z : Byte) : z <<< ms.length = 0#8 := BitVec.shiftLeft_eq_zero (by omega)
  have unit_congr := listening_unit_congr ms rest hc hd (by omega) ((gone x).trans (gone y).symm)
  rwa [hlen] at unit_congr

/-- Settles O1, by the definition of the state after reset. -/
theorem resetLeavesTheValuesOfTheSpec : Obligations.ResetLeavesTheValuesOfTheSpec :=
  fun _ => ⟨fun _ => rfl, rfl, rfl, rfl, rfl, rfl, rfl, rfl, rfl⟩

/-- Settles O37: the invariant at reset, and the reference configuration is one of the block. -/
theorem invariantHoldsAtReset : Obligations.InvariantHoldsAtReset :=
  ⟨fun _ => resetOf_inv, rfl, resetOf_inv (by decide)⟩

end

section
/-!
PROOFS. The register file as the master sees it (20_memory section 5): the merge of R49 keeps each bit whose mask is 0.
-/

namespace Sys2Proof.Machine

variable {s t : State} {j k : Nat}

/-- A master data byte, accepted at whatever index, leaves every masked-off bit of every register (R49, R96). -/
theorem State.acceptByte_maskedOff_bit (p : Nat) (d : Byte) (hw : Memory.wf s.cfg s.regs) (hk : k < 8)
    (off : (maskAt s.cfg j).getLsbD k = false) :
    ((s.acceptByte p d).readReg j).getLsbD k = (s.readReg j).getLsbD k := by
  by_cases hj : j = p
  · subst hj
    rw [State.readReg_acceptByte_same d hw, mergeMasked_bit _ _ _ k hk, off]
    rfl
  · rw [State.readReg_acceptByte_other d hj]

/-- The overflow step keeps the masked-off bits: it writes the registers only by accepting a byte. -/
theorem overflowStep_maskedOff_bit (h : overflowStep s = .next t) (hw : Memory.wf s.cfg s.regs) (hk : k < 8)
    (off : (maskAt s.cfg j).getLsbD k = false) : (t.readReg j).getLsbD k = (s.readReg j).getLsbD k := by
  obtain ⟨hcfg, -⟩ := overflowStep_frame h
  rcases overflowStep_regs_tally h with ⟨hregs, -⟩ | ⟨-, -, d, hregs, -⟩
  · simp only [State.readReg, hcfg, hregs]
  · have accepted : t.readReg j = (s.acceptByte s.ptr.toNat d).readReg j := by
      simp only [State.readReg, hcfg, hregs, State.acceptByte_cfg]
    rw [accepted, State.acceptByte_maskedOff_bit _ d hw hk off]

/-- `BIT` keeps the masked-off bits: it reaches the registers only through the overflow step (R82). -/
theorem execBit_maskedOff_bit {m : Level} (h : execBit m s = .next t) (hw : Memory.wf s.cfg s.regs) (hk : k < 8)
    (off : (maskAt s.cfg j).getLsbD k = false) : (t.readReg j).getLsbD k = (s.readReg j).getLsbD k := by
  cases execBit_answers h with
  | bitDisarmed | bitCounting => rfl
  | bitCompleting _ _ _ ho => exact overflowStep_maskedOff_bit (s := s.counted m) ho hw hk off

end Sys2Proof.Machine

open Sys2Proof Sys2Proof.Machine

/-- Settles O45: of the bus events only `BIT` reaches the registers, and it does so through the mask. -/
theorem busNeverChangesAMaskedOffBit : Obligations.BusNeverChangesAMaskedOffBit := by
  intro s t j k m hi hk off h
  rcases h with start | stop | bit
  · cases start; rfl
  · cases stop; rfl
  · exact execBit_maskedOff_bit bit hi.regs_wf hk off

end

section
/-!
PROOFS. The encodings (30_encoding): the fields of the latched byte (R68), the address matcher (R69), and the decoder as a
relation with one case per row of the operation table (R70), inverse to the encoder (R75).
-/

namespace Sys2Proof

variable {c : Config} {ph : Phase} {st : EngineState} {b : Byte} {e : EngineStep} {i : Instr}

/-! The fields of the latched byte as numbers (R68), and those of an address byte (R61). -/

theorem addrOf_toNat (b : Byte) : (addrOf b).toNat = b.toNat / 2 := by
  simp only [addrOf, BitVec.extractLsb'_toNat, Nat.shiftRight_eq_div_pow]
  omega

theorem rwOf_toNat (b : Byte) : (rwOf b).toNat = b.toNat % 2 := by simp [rwOf]

theorem addressByte_toNat (a : Addr7) (rw : Level) : (addressByte a rw).toNat = 2 * a.toNat + rw.toNat := by
  rw [addressByte, BitVec.toNat_append, ← Nat.shiftLeft_add_eq_or_of_lt rw.isLt, Nat.shiftLeft_eq]
  omega

@[simp] theorem addrOf_addressByte (a : Addr7) (rw : Level) : addrOf (addressByte a rw) = a := by
  apply BitVec.eq_of_toNat_eq
  rw [addrOf_toNat, addressByte_toNat]
  omega

@[simp] theorem rwOf_addressByte (a : Addr7) (rw : Level) : rwOf (addressByte a rw) = rw := by
  apply BitVec.eq_of_toNat_eq
  rw [rwOf_toNat, addressByte_toNat]
  omega

/-- An address byte is its two fields: none of its bits is outside them. -/
theorem addressByte_fields (b : Byte) : addressByte (addrOf b) (rwOf b) = b := by
  apply BitVec.eq_of_toNat_eq
  rw [addressByte_toNat, addrOf_toNat, rwOf_toNat]
  omega

theorem level_eq_zero_of_ne_one {x : Level} (h : x ≠ 1#1) : x = 0#1 := (BitVec.eq_zero_or_eq_one x).resolve_right h

/-! The two checks of a data unit: the address matcher (R69) and the offset's range (R94, R95). -/

theorem addrMatches_iff {a : Addr7} : addrMatches c a = true ↔ a = 0#7 ∨ a = c.slaveAddr := by simp [addrMatches]

@[simp] theorem addrMatches_zero (c : Config) : addrMatches c 0#7 = true := addrMatches_iff.2 (.inl rfl)

@[simp] theorem addrMatches_slaveAddr (c : Config) : addrMatches c c.slaveAddr = true := addrMatches_iff.2 (.inr rfl)

theorem addrMatches_eq_false_iff {a : Addr7} : addrMatches c a = false ↔ a ≠ 0#7 ∧ a ≠ c.slaveAddr := by
  rw [← Bool.not_eq_true, addrMatches_iff, not_or]

theorem addrMatches_addrOf_iff :
    addrMatches c (addrOf b) = true ↔ b.toNat / 2 = 0 ∨ b.toNat / 2 = c.slaveAddr.toNat := by
  simp only [addrMatches_iff, ← BitVec.toNat_inj, addrOf_toNat]
  rfl

theorem offsetInRange_iff {o : Byte} : offsetInRange c o = true ↔ o.toNat < c.n := decide_eq_true_iff

theorem offsetInRange_eq_false_iff {o : Byte} : offsetInRange c o = false ↔ c.n ≤ o.toNat := by
  rw [← Bool.not_eq_true, offsetInRange_iff, Nat.not_lt]

/-! The decoder, row by row (R70, R71). -/

/-- `Selects c ph st b e`: by its selector in the operation table, `Phase`, `State` and the latched byte select the row `e`.
No case gives `P1.DEF` (R98). -/
inductive Selects (c : Config) : Phase → EngineState → Byte → EngineStep → Prop where
  | addrNak (b : Byte) (h : addrMatches c (addrOf b) = false) :
      Selects c .preAck .addrMatch b (.addrNak (addrOf b) (rwOf b))
  | addrRd (b : Byte) (h : addrMatches c (addrOf b) = true) (hrw : rwOf b = 1#1) :
      Selects c .preAck .addrMatch b (.addrRd (addrOf b))
  | addrWr (b : Byte) (h : addrMatches c (addrOf b) = true) (hrw : rwOf b = 0#1) :
      Selects c .preAck .addrMatch b (.addrWr (addrOf b))
  | regNak (b : Byte) (h : offsetInRange c b = false) : Selects c .preAck .regAddr b (.regNak b)
  | regAck (b : Byte) (h : offsetInRange c b = true) : Selects c .preAck .regAddr b (.regAck b)
  | wr (b : Byte) : Selects c .preAck .masterWrite b (.wr b)
  | rd (b : Byte) : Selects c .preAck .masterRead b .rd
  | rdNak (b : Byte) (h : ackBitOf b = 1#1) : Selects c .postAck .masterRead b .rdNak
  | rdAck (b : Byte) (h : ackBitOf b = 0#1) : Selects c .postAck .masterRead b .rdAck
  | other (st : EngineState) (b : Byte) (h : st ≠ .masterRead) : Selects c .postAck st b .other

theorem decodePhase1_selects (c : Config) (st : EngineState) (b : Byte) :
    Selects c .preAck st b (decodePhase1 c st b) := by
  cases st <;> simp only [decodePhase1]
  case addrMatch =>
    split
    next h => exact .addrNak b h
    next h =>
      split
      next hrw => exact .addrRd b (Bool.eq_true_of_not_eq_false h) hrw
      next hrw => exact .addrWr b (Bool.eq_true_of_not_eq_false h) (level_eq_zero_of_ne_one hrw)
  case regAddr =>
    split
    next h => exact .regNak b h
    next h => exact .regAck b (Bool.eq_true_of_not_eq_false h)
  case masterRead => exact .rd b
  case masterWrite => exact .wr b

theorem decodePhase2_selects (c : Config) (st : EngineState) (b : Byte) :
    Selects c .postAck st b (decodePhase2 st b) := by
  cases st <;> simp only [decodePhase2]
  case masterRead =>
    split
    next h => exact .rdNak b h
    next h => exact .rdAck b (level_eq_zero_of_ne_one h)
  all_goals exact .other _ b nofun

/-- The selectors are exhaustive: the decoder's answer is a row that is selected. -/
theorem decodeStep_selects (c : Config) (ph : Phase) (st : EngineState) (b : Byte) :
    Selects c ph st b (decodeStep c ph st b) := by
  cases ph
  · exact decodePhase1_selects c st b
  · exact decodePhase2_selects c st b

/-- The selectors exclude each other: a row that is selected is the decoder's answer. -/
theorem Selects.decodeStep_eq (h : Selects c ph st b e) : decodeStep c ph st b = e := by
  cases h with
  | addrNak _ h => simp [decodeStep, decodePhase1, h]
  | addrRd _ h hrw | addrWr _ h hrw => simp [decodeStep, decodePhase1, h, hrw]
  | regNak _ h | regAck _ h => simp [decodeStep, decodePhase1, offsetOf, h]
  | wr | rd => rfl
  | rdNak _ h | rdAck _ h => simp [decodeStep, decodePhase2, h]
  | other st _ h =>
    cases st
    case masterRead => exact absurd rfl h
    all_goals rfl

/-! A selected row as an operation: its operands, its mode, and its byte. -/

theorem Selects.wf (h : Selects c ph st b e) : e.toInstr.wf c = true := by
  cases h with
  | addrNak _ h => exact decide_eq_true (addrMatches_eq_false_iff.1 h)
  | addrRd _ h | addrWr _ h => exact decide_eq_true (addrMatches_iff.1 h)
  | regNak _ h => exact decide_eq_true (offsetInRange_eq_false_iff.1 h)
  | regAck _ h => exact decide_eq_true (offsetInRange_iff.1 h)
  | wr | rd | rdNak | rdAck | other => rfl

theorem Selects.selectedIn (h : Selects c ph st b e) : e.toInstr.selectedIn ph st = true := by
  cases h with
  | other _ _ h => simpa [EngineStep.toInstr, Instr.selectedIn] using h
  | _ => rfl

/-- The row has a byte: the latched byte where the row fixes or reads all 8 bits, one with the same ack bit in the ack unit
of `MasterRead` (R75). -/
theorem Selects.exists_encode (h : Selects c ph st b e) : ∃ b', encode e.toInstr = some b' ∧
    (ph = .preAck → st ≠ .masterRead → b' = b) ∧ (ph = .postAck → st = .masterRead → rwOf b' = rwOf b) := by
  cases h with
  | addrNak => exact ⟨b, congrArg some (addressByte_fields b), fun _ _ => rfl, nofun⟩
  | addrRd _ _ hrw | addrWr _ _ hrw => exact ⟨b, congrArg some (hrw ▸ addressByte_fields b), fun _ _ => rfl, nofun⟩
  | regNak | regAck | wr => exact ⟨b, rfl, fun _ _ => rfl, nofun⟩
  | rd => exact ⟨0#8, rfl, fun _ hst => absurd rfl hst, nofun⟩
  | rdNak _ h | rdAck _ h => exact ⟨_, rfl, nofun, fun _ _ => .trans (by rfl) h.symm⟩
  | other _ _ h => exact ⟨0#8, rfl, nofun, fun _ hst => absurd hst h⟩

/-- A well-formed operation with an encoding is the row that its byte selects in its mode: the fields of the byte are its
operands, and its selector is met. -/
theorem selects_of_encode (hwf : i.wf c = true) (hsel : i.selectedIn ph st = true) (henc : encode i = some b) :
    ∃ e, Selects c ph st b e ∧ e.toInstr = i := by
  cases i <;> cases henc <;> simp only [Instr.selectedIn, Bool.and_eq_true, beq_iff_eq, bne_iff_ne] at hsel
  case p1Def => cases hsel
  all_goals obtain ⟨rfl, hst⟩ := hsel
  case p2Other => exact ⟨_, .other st _ hst, rfl⟩
  all_goals subst hst
  case p1AddrNak a rw =>
    have mismatch : addrMatches c a = false := addrMatches_eq_false_iff.2 (of_decide_eq_true hwf)
    exact ⟨_, .addrNak _ (by simpa using mismatch), by simp [EngineStep.toInstr]⟩
  case p1AddrRd a =>
    have accepted : addrMatches c a = true := addrMatches_iff.2 (of_decide_eq_true hwf)
    exact ⟨_, .addrRd _ (by simpa using accepted) (by simp), by simp [EngineStep.toInstr]⟩
  case p1AddrWr a =>
    have accepted : addrMatches c a = true := addrMatches_iff.2 (of_decide_eq_true hwf)
    exact ⟨_, .addrWr _ (by simpa using accepted) (by simp), by simp [EngineStep.toInstr]⟩
  case p1RegNak => exact ⟨_, .regNak b (offsetInRange_eq_false_iff.2 (of_decide_eq_true hwf)), rfl⟩
  case p1RegAck => exact ⟨_, .regAck b (offsetInRange_iff.2 (of_decide_eq_true hwf)), rfl⟩
  case p1Wr => exact ⟨_, .wr b, rfl⟩
  case p1Rd => exact ⟨_, .rd _, rfl⟩
  case p2RdNak => exact ⟨_, .rdNak _ (by decide), rfl⟩
  case p2RdAck => exact ⟨_, .rdAck _ (by decide), rfl⟩

theorem decodeStep_encode (hwf : i.wf c = true) (hsel : i.selectedIn ph st = true) (henc : encode i = some b) :
    (decodeStep c ph st b).toInstr = i := by
  obtain ⟨e, selected, rfl⟩ := selects_of_encode hwf hsel henc
  rw [selected.decodeStep_eq]

theorem EngineStep.toInstr_inj {e e' : EngineStep} (h : e.toInstr = e'.toInstr) : e = e' := by
  cases e <;> cases e' <;> cases h <;> rfl

/-- A write to any address the matcher accepts is acknowledged (R69, R93). -/
theorem decodeStep_write {a : Addr7} (h : addrMatches c a = true) :
    decodeStep c .preAck .addrMatch (addressByte a 0#1) = .addrWr a := by
  simpa using (Selects.addrWr (addressByte a 0#1) (by simpa using h) (by simp)).decodeStep_eq

/-- A read from any address the matcher accepts is acknowledged (R69, R92). -/
theorem decodeStep_read {a : Addr7} (h : addrMatches c a = true) :
    decodeStep c .preAck .addrMatch (addressByte a 1#1) = .addrRd a := by
  simpa using (Selects.addrRd (addressByte a 1#1) (by simpa using h) (by simp)).decodeStep_eq

/-! The count of the rejected address bytes (30_encoding section 3). -/

/-- The step is a row `P1.ADDR.NAK`. -/
def EngineStep.isAddrNak : EngineStep → Bool
  | .addrNak _ _ => true
  | _ => false

theorem isAddrNak_decodeStep_iff :
    (decodeStep c .preAck .addrMatch b).isAddrNak = true ↔ addrMatches c (addrOf b) = false := by
  generalize he : decodeStep c .preAck .addrMatch b = e
  cases he ▸ decodeStep_selects c .preAck .addrMatch b with
  | addrNak _ h | addrRd _ h | addrWr _ h => simp [EngineStep.isAddrNak, h]

/-- The two bytes of address 0 and the two of address `a`. -/
def acceptedBytes (a : Nat) : Finset Nat := {0, 1, 2 * a, 2 * a + 1}

theorem mem_acceptedBytes {a v : Nat} : v ∈ acceptedBytes a ↔ v / 2 = 0 ∨ v / 2 = a := by
  simp only [acceptedBytes, Finset.mem_insert, Finset.mem_singleton]
  omega

theorem card_acceptedBytes (a : Nat) : (acceptedBytes a).card = if a = 0 then 2 else 4 := by
  by_cases h : a = 0
  · subst h; rfl
  · have zero_unlisted : 0 ∉ ({1, 2 * a, 2 * a + 1} : Finset Nat) := by simp [h]
    have one_unlisted : 1 ∉ ({2 * a, 2 * a + 1} : Finset Nat) := by
      simp only [Finset.mem_insert, Finset.mem_singleton]
      omega
    rw [acceptedBytes, Finset.card_insert_of_notMem zero_unlisted, Finset.card_insert_of_notMem one_unlisted,
      Finset.card_pair (by omega), if_neg h]

theorem acceptedBytes_subset (a : Addr7) : acceptedBytes a.toNat ⊆ Finset.range 256 := fun v hv => by
  have := mem_acceptedBytes.1 hv
  simp only [Finset.mem_range]
  omega

/-- The rejected byte values are those of neither address 0 nor the device's own address. -/
theorem filter_isAddrNak (c : Config) :
    ((List.range 256).filter fun v => (decodeStep c .preAck .addrMatch (BitVec.ofNat 8 v)).isAddrNak).toFinset =
      Finset.range 256 \ acceptedBytes c.slaveAddr.toNat := by
  ext v
  simp only [List.mem_toFinset, List.mem_filter, List.mem_range, Finset.mem_sdiff, Finset.mem_range, mem_acceptedBytes]
  refine and_congr_right fun hv => ?_
  have value : (BitVec.ofNat 8 v).toNat = v := by simpa using hv
  rw [isAddrNak_decodeStep_iff, ← Bool.not_eq_true, addrMatches_addrOf_iff, value]

theorem length_filter_isAddrNak (c : Config) :
    ((List.range 256).filter fun v => (decodeStep c .preAck .addrMatch (BitVec.ofNat 8 v)).isAddrNak).length =
      if c.slaveAddr = 0#7 then 254 else 252 := by
  rw [← List.toFinset_card_of_nodup (List.nodup_range.filter _), filter_isAddrNak,
    Finset.card_sdiff_of_subset (acceptedBytes_subset _), card_acceptedBytes, Finset.card_range]
  simp only [← BitVec.toNat_inj, BitVec.toNat_ofNat]
  split <;> rfl

end Sys2Proof

open Sys2Proof Sys2Proof.Machine

/-- Settles O13: an operation's byte selects its own row, and the decoder finds the row selected. -/
theorem decodeOfEncodeIsTheOperation : Obligations.DecodeOfEncodeIsTheOperation :=
  fun _ _ _ _ _ => decodeStep_encode

/-- Settles O11, by the matcher's condition and the four accepted bytes' fields. -/
theorem addressZeroAlwaysMatches : Obligations.AddressZeroAlwaysMatches :=
  fun c _ => ⟨addrMatches_addrOf_iff, decodeStep_write (addrMatches_zero c), decodeStep_read (addrMatches_zero c),
    decodeStep_write (addrMatches_slaveAddr c), decodeStep_read (addrMatches_slaveAddr c)⟩

/-- Settles O12: of the 256 byte values, all but the accepted ones are rejected. -/
theorem addressBytesPartition : Obligations.AddressBytesPartition := length_filter_isAddrNak

/-- Settles O14: the row selected carries what the statement says, and an operation with this byte is that row by the
round trip. -/
theorem decodedOperationIsTheOnlyOneSelected : Obligations.DecodedOperationIsTheOnlyOneSelected := by
  intro c ph st b
  have selected := decodeStep_selects c ph st b
  obtain ⟨b', henc, all_bits, ack_bit⟩ := selected.exists_encode
  refine ⟨selected.wf, selected.selectedIn, ⟨b', henc, ?_, all_bits, fun hph hst => ?_⟩, fun i hwf hsel hb => ?_⟩
  · exact EngineStep.toInstr_inj (decodeStep_encode selected.wf selected.selectedIn henc)
  · rw [← rwOf_toNat, ack_bit hph hst, rwOf_toNat]
  · exact (decodeStep_encode hwf hsel hb).symm

/-- Settles O9: the row that an engine step names is what runs. -/
theorem overflowRunsTheDecodedStep : Obligations.OverflowRunsTheDecodedStep :=
  fun s => runStep_eq_exec _ s

/-- Settles O10, field by field. -/
theorem fieldsOfTheLatchedByte : Obligations.FieldsOfTheLatchedByte :=
  fun b => ⟨addrOf_toNat b, rwOf_toNat b, rfl, rfl, rwOf_toNat b⟩

/-- Settles O16, by running the decoder on the written words. -/
theorem writtenWordsDecode : Obligations.WrittenWordsDecode := by
  unfold Obligations.WrittenWordsDecode
  decide

end

section
/-!
PROOFS. The bus events (40_bus_events): `START` and `STOP` (R80, R81), `BIT` and the engine step it selects (R82, R83),
and the wire sequences of a master's write (R73, R74) as runs composed of bytes.
-/

namespace Sys2Proof.Machine

variable {s t u : State}

/-! `BIT` as arithmetic (R82): the wire value, and the shift. -/

/-- The wired-AND: the block's 0 wins, and otherwise the wire carries the master's level. -/
theorem State.wireLevel_eq (s : State) (m : Level) :
    s.wireLevel m = if s.dir = .driving ∧ s.shiftReg.toNat < 128 then 0#1 else m := by
  unfold State.wireLevel
  split
  next low => rw [State.contribution_zero_iff.2 low, BitVec.and_zero]
  next high =>
    have released : s.contribution = 1#1 :=
      (BitVec.eq_zero_or_eq_one _).resolve_left fun h => high (State.contribution_zero_iff.1 h)
    rw [released]
    exact BitVec.and_allOnes

/-- Doubling leaves bit 0 free for the wire value. -/
theorem shiftIn_eq_ofNat (x : Byte) (w : Level) : shiftIn x w = BitVec.ofNat 8 (2 * x.toNat % 256 + w.toNat) := by
  have even : 2 * x.toNat % 256 = (x.toNat % 128) <<< 1 := by rw [Nat.shiftLeft_eq]; omega
  apply BitVec.eq_of_toNat_eq
  rw [even, Nat.shiftLeft_add_eq_or_of_lt w.isLt, ← even]
  simp [shiftIn, Nat.shiftLeft_eq, Nat.mul_comm]

/-- With the pointer inside the register file a `BIT` completes, and puts out the wire value. -/
theorem execBit_completes (m : Level) (hp : s.ptr.toNat < s.cfg.n) :
    ∃ t, execBit m s = .next t ∧ t.output = some (.wire (s.wireLevel m)) := by
  rcases execBit_cases m s with ⟨-, he⟩ | ⟨-, he⟩ | ⟨-, he⟩ <;> rw [he]
  · exact ⟨_, rfl, rfl⟩
  · exact ⟨_, rfl, rfl⟩
  · obtain ⟨t, ht⟩ := overflowStep_completes (s := s.counted m) hp
    obtain ⟨-, -, -, houtput, -⟩ := overflowStep_frame ht
    exact ⟨t, ht, houtput⟩

/-! The overflow step (R83). -/

theorem overflowStep_of_selects {e : EngineStep} (h : Selects s.cfg s.phase s.engineState s.shiftReg e) :
    overflowStep s = exec e.toInstr s := by
  unfold overflowStep
  rw [h.decodeStep_eq, runStep_eq_exec]

/-- The overflow step arms a data unit, arms an ack unit, or lets go of the bus (R90). -/
theorem overflowStep_unit (h : overflowStep s = .next t) :
    (t.bitCount = 8 ∧ t.phase = .preAck) ∨ (t.bitCount = 1 ∧ t.phase = .postAck) ∨
      (t.bitCount = 0 ∧ t.phase = .preAck ∧ t.dir = .listening) := by
  unfold overflowStep at h
  cases hd : decodeStep s.cfg s.phase s.engineState s.shiftReg <;> rw [hd] at h <;> simp only [runStep] at h
  case rdAck => obtain ⟨-, rfl⟩ := atPointer_next.1 h; exact .inl ⟨rfl, rfl⟩
  case other => cases h; exact .inl ⟨rfl, rfl⟩
  case wr => obtain ⟨-, rfl⟩ := atPointer_next.1 h; exact .inr (.inl ⟨rfl, rfl⟩)
  case addrRd | addrWr | regAck | rd => cases h; exact .inr (.inl ⟨rfl, rfl⟩)
  case addrNak | regNak | defensive | rdNak => cases h; exact .inr (.inr ⟨rfl, rfl, rfl⟩)

theorem addrOf_eq_ofNat (b : Byte) : addrOf b = BitVec.ofNat 7 (b.toNat / 2) := by
  rw [← addrOf_toNat, BitVec.ofNat_toNat, BitVec.setWidth_eq]

theorem rwOf_eq_ofNat (b : Byte) : rwOf b = BitVec.ofNat 1 b.toNat :=
  BitVec.eq_of_toNat_eq (by rw [rwOf_toNat, BitVec.toNat_ofNat])

theorem rwOf_eq_iff {b : Byte} {w : Level} : rwOf b = w ↔ b.toNat % 2 = w.toNat := by
  rw [← BitVec.toNat_inj, rwOf_toNat]

theorem overflowStep_addrNak (hph : s.phase = .preAck) (hst : s.engineState = .addrMatch)
    (h : addrMatches s.cfg (addrOf s.shiftReg) = false) :
    overflowStep s = exec (.p1AddrNak (addrOf s.shiftReg) (rwOf s.shiftReg)) s :=
  overflowStep_of_selects (by rw [hph, hst]; exact .addrNak _ h)

theorem overflowStep_addrRd (hph : s.phase = .preAck) (hst : s.engineState = .addrMatch)
    (h : addrMatches s.cfg (addrOf s.shiftReg) = true) (hrw : rwOf s.shiftReg = 1#1) :
    overflowStep s = exec (.p1AddrRd (addrOf s.shiftReg)) s :=
  overflowStep_of_selects (by rw [hph, hst]; exact .addrRd _ h hrw)

theorem overflowStep_addrWr (hph : s.phase = .preAck) (hst : s.engineState = .addrMatch)
    (h : addrMatches s.cfg (addrOf s.shiftReg) = true) (hrw : rwOf s.shiftReg = 0#1) :
    overflowStep s = exec (.p1AddrWr (addrOf s.shiftReg)) s :=
  overflowStep_of_selects (by rw [hph, hst]; exact .addrWr _ h hrw)

theorem overflowStep_regNak (hph : s.phase = .preAck) (hst : s.engineState = .regAddr)
    (h : s.cfg.n ≤ s.shiftReg.toNat) : overflowStep s = exec (.p1RegNak s.shiftReg) s :=
  overflowStep_of_selects (by rw [hph, hst]; exact .regNak _ (offsetInRange_eq_false_iff.2 h))

theorem overflowStep_regAck (hph : s.phase = .preAck) (hst : s.engineState = .regAddr)
    (h : s.shiftReg.toNat < s.cfg.n) : overflowStep s = exec (.p1RegAck s.shiftReg) s :=
  overflowStep_of_selects (by rw [hph, hst]; exact .regAck _ (offsetInRange_iff.2 h))

theorem overflowStep_wr (hph : s.phase = .preAck) (hst : s.engineState = .masterWrite) :
    overflowStep s = exec (.p1Wr s.shiftReg) s :=
  overflowStep_of_selects (by rw [hph, hst]; exact .wr _)

theorem overflowStep_rd (hph : s.phase = .preAck) (hst : s.engineState = .masterRead) :
    overflowStep s = exec .p1Rd s :=
  overflowStep_of_selects (by rw [hph, hst]; exact .rd _)

theorem overflowStep_rdNak (hph : s.phase = .postAck) (hst : s.engineState = .masterRead)
    (h : rwOf s.shiftReg = 1#1) : overflowStep s = exec .p2RdNak s :=
  overflowStep_of_selects (by rw [hph, hst]; exact .rdNak _ h)

theorem overflowStep_rdAck (hph : s.phase = .postAck) (hst : s.engineState = .masterRead)
    (h : rwOf s.shiftReg = 0#1) : overflowStep s = exec .p2RdAck s :=
  overflowStep_of_selects (by rw [hph, hst]; exact .rdAck _ h)

/-- With the pointer inside the register file, an ACK from the master loads the register there (R101). -/
theorem overflowStep_loads (hph : s.phase = .postAck) (hst : s.engineState = .masterRead)
    (h : rwOf s.shiftReg = 0#1) (hp : s.ptr.toNat < s.cfg.n) :
    overflowStep s = .next { s with
      shiftReg := s.readReg s.ptr.toNat, ptr := nextIndex s.cfg.n s.ptr, dir := .driving, bitCount := 8,
      phase := .preAck, engineState := .masterRead } := by
  rw [overflowStep_rdAck hph hst h, exec_p2RdAck]
  exact atPointer_of_lt hp

theorem overflowStep_other (hph : s.phase = .postAck) (hst : s.engineState ≠ .masterRead) :
    overflowStep s = exec .p2Other s :=
  overflowStep_of_selects (by rw [hph]; exact .other _ _ hst)

theorem addrMatches_addrOf_eq_false_iff {c : Config} {b : Byte} :
    addrMatches c (addrOf b) = false ↔ b.toNat / 2 ≠ 0 ∧ b.toNat / 2 ≠ c.slaveAddr.toNat := by
  rw [← Bool.not_eq_true, addrMatches_addrOf_iff, not_or]

/-! The ack unit in which the block drives its own ACK (R90). -/

theorem State.wireLevel_driveAck (s : State) (m : Level) : s.driveAck.wireLevel m = 0#1 := by
  rw [State.wireLevel_eq, if_pos ⟨rfl, by simp⟩]

/-- Whatever the master drives, the block's ACK is on the wire, and the unit ends in the Phase 2 step with the shift
register still 0. -/
theorem execBit_driveAck (s : State) (m : Level) :
    execBit m s.driveAck = overflowStep { s.driveAck with bitCount := 0, output := some (.wire 0#1) } := by
  have zero_stays : s.driveAck.counted m = { s.driveAck with bitCount := 0, output := some (.wire 0#1) } := by
    have shifted : shiftIn 0#8 0#1 = 0#8 := by decide
    rw [State.counted, State.wireLevel_driveAck, State.countBit, State.emit_shiftReg, State.driveAck_shiftReg, shifted]
    rfl
  rw [execBit_completing m rfl, ← zero_stays]

/-! Runs and what they put out, together. -/

/-- The trace of bit times with the wire values `ws`. -/
abbrev wireTrace (ws : List Level) : List (Option Output) := ws.map fun w => some (.wire w)

/-- From `s`, `n` steps lead to `t` and put out `os`. -/
structure Runs (n : Nat) (s : State) (os : List (Option Output)) (t : State) : Prop where
  run : runSteps n s = .next t
  trace : outputs n s = os

theorem Runs.refl (s : State) : Runs 0 s [] s := ⟨rfl, rfl⟩

theorem Runs.trans {m n : Nat} {os os' : List (Option Output)} (h : Runs m s os t) (h' : Runs n t os' u) :
    Runs (m + n) s (os ++ os') u where
  run := (runSteps_add m n h.run).trans h'.run
  trace := by rw [outputs_add m n h.run, h.trace, h'.trace]

theorem Runs.of_step (hp : s.pending ≠ []) (h : step s = .next t) : Runs 1 s [t.output] t where
  run := runSteps_one.trans h
  trace := outputs_next 0 hp h

/-! Bits that the block hears but does not answer. -/

/-- Bits of a unit that leave it unfinished are shifted in, and the wire carries them. -/
theorem runs_heard_bits (ms : List Level) (rest : List Request) {s : State} {x : Byte} (hc : s.cfg.wf)
    (hd : s.dir = .listening) (hb : ms.length < s.bitCount) :
    ∃ o, Runs ms.length (s.withUnit x (ms.map .bit ++ rest)) (wireTrace ms)
      ({ s with bitCount := s.bitCount - ms.length, output := o }.withUnit (ms.foldl shiftIn x) rest) := by
  induction ms generalizing s x with
  | nil => exact ⟨s.output, .refl _⟩
  | cons m ms ih =>
    rw [List.length_cons] at hb
    have first := Runs.of_step (by simp [State.withUnit])
      (step_withUnit_counting (x := x) (m := m) (rs := ms.map .bit ++ rest) hc hd (by omega))
    obtain ⟨o, others⟩ := ih (s := s.heard m) (x := shiftIn x m) hc hd (by simp only [State.heard]; omega)
    refine ⟨o, ?_⟩
    have both := first.trans others
    simpa [State.heard, State.withUnit, Nat.add_comm, Nat.sub_sub] using both

theorem execBit_ignored (m : Level) (hd : s.dir = .listening) (hb : s.bitCount = 0) :
    execBit m s = .next { s with output := some (.wire m) } := by
  rw [execBit_disarmed m hb, State.wireLevel_listening m hd]
  rfl

/-- Once disarmed the block only listens: bits change nothing, and the wire carries them (R82, R90). -/
theorem runs_ignored_bits (ms : List Level) (rest : List Request) {s : State} (hc : s.cfg.wf)
    (hd : s.dir = .listening) (hb : s.bitCount = 0) :
    ∃ o, Runs ms.length { s with pending := ms.map .bit ++ rest } (wireTrace ms)
      { s with pending := rest, output := o } := by
  induction ms generalizing s with
  | nil => exact ⟨s.output, .refl _⟩
  | cons m ms ih =>
    have ignored : step { s with pending := .bit m :: (ms.map .bit ++ rest) } =
        .next { s with pending := ms.map .bit ++ rest, output := some (.wire m) } :=
      (step_bit s m _ hc).trans (execBit_ignored m hd hb)
    obtain ⟨o, others⟩ := ih (s := { s with output := some (.wire m) }) hc hd hb
    have both := (Runs.of_step (by simp) ignored).trans others
    exact ⟨o, by simpa [Nat.add_comm] using both⟩

/-! A byte from the master (R43, R73). -/

/-- The block listens at the start of a data unit. -/
structure State.AwaitsByte (s : State) : Prop where
  cfg_wf : s.cfg.wf
  dir_eq : s.dir = .listening
  phase_eq : s.phase = .preAck
  bitCount_eq : s.bitCount = 8

/-- `s` when the eight bits of the byte `b` are in and the overflow step is about to run. -/
def State.latched (s : State) (b : Byte) (rest : List Request) : State :=
  { s with shiftReg := b, bitCount := 0, pending := rest, output := some (.wire (bitOf b 0)) }

/-- The eight bits of a byte, bit 7 first, shift out whatever the shift register held. -/
theorem foldl_shiftIn_wireBits (x b : Byte) : (wireBits b).foldl shiftIn x = b := by
  apply BitVec.eq_of_getLsbD_eq
  intro k hk
  interval_cases k <;> simp [wireBits, bitOf, shiftIn_bit, -BitVec.getLsbD_eq_getElem]

/-- The last bit of a byte, after the seven before it, runs the overflow step. -/
theorem runs_to_last_bit (h : s.AwaitsByte) (b : Byte) (rest : List Request) :
    ∃ u, Runs 7 { s with pending := (wireBits b).map .bit ++ rest } (wireTrace ((wireBits b).take 7)) u ∧
      u.pending ≠ [] ∧ step u = overflowStep (s.latched b rest) := by
  obtain ⟨o, seven⟩ := runs_heard_bits ((wireBits b).take 7) (.bit (bitOf b 0) :: rest) (x := s.shiftReg) h.cfg_wf
    h.dir_eq (by simp [h.bitCount_eq, wireBits])
  refine ⟨_, seven, by simp [State.withUnit], ?_⟩
  have all_in : shiftIn (((wireBits b).take 7).foldl shiftIn s.shiftReg) (bitOf b 0) = b :=
    foldl_shiftIn_wireBits s.shiftReg b
  rw [step_withUnit_completing (by exact h.cfg_wf) (by exact h.dir_eq) (by simp [h.bitCount_eq, wireBits]), all_in]
  simp [State.heard, State.withUnit, State.latched, h.bitCount_eq, wireBits]

/-- Eight bits lead to the overflow step with the byte in the shift register. -/
theorem runSteps_byte (h : s.AwaitsByte) (b : Byte) (rest : List Request) :
    runSteps 8 { s with pending := (wireBits b).map .bit ++ rest } = overflowStep (s.latched b rest) := by
  obtain ⟨u, seven, -, last⟩ := runs_to_last_bit h b rest
  rw [runSteps_add 7 1 seven.run, runSteps_one, last]

/-- A byte that the overflow step answers: the wire carries its bits. -/
theorem runs_byte (h : s.AwaitsByte) (b : Byte) (rest : List Request) (ho : overflowStep (s.latched b rest) = .next t) :
    Runs 8 { s with pending := (wireBits b).map .bit ++ rest } (wireTrace (wireBits b)) t := by
  obtain ⟨u, seven, requested, last⟩ := runs_to_last_bit h b rest
  obtain ⟨-, -, -, houtput, -⟩ := overflowStep_frame ho
  have eight := seven.trans (.of_step requested (last.trans ho))
  rw [houtput] at eight
  exact eight

/-! A byte that the block does not acknowledge (R91, R94). -/

/-- The NAK lets go of a line that the block was not driving. -/
theorem State.AwaitsByte.driveNak_latched (h : s.AwaitsByte) (b : Byte) (rest : List Request) :
    (s.latched b rest).driveNak = s.latched b rest := by
  simp only [State.driveNak, State.release, ← h.dir_eq, ← h.phase_eq]
  rfl

/-- After a NAKed byte the block waits for the next `START`, whatever the master sends. -/
theorem runs_naked (h : s.AwaitsByte) (b : Byte) (ms : List Level) (rest : List Request)
    (nak : overflowStep (s.latched b (ms.map .bit ++ rest)) =
      .next { (s.latched b (ms.map .bit ++ rest)).driveNak with engineState := .addrMatch }) :
    ∃ o, Runs (8 + ms.length) { s with pending := (wireBits b ++ ms).map .bit ++ rest } (wireTrace (wireBits b ++ ms))
      { s with engineState := .addrMatch, shiftReg := b, bitCount := 0, pending := rest, output := o } := by
  rw [h.driveNak_latched] at nak
  obtain ⟨o, ignored⟩ := runs_ignored_bits ms rest
    (s := { s.latched b (ms.map .bit ++ rest) with engineState := .addrMatch }) h.cfg_wf h.dir_eq rfl
  have all := (runs_byte h b _ nak).trans ignored
  rw [← List.map_append] at all
  refine ⟨o, ?_⟩
  rw [List.map_append, List.append_assoc]
  exact all

/-! A byte that the block acknowledges (R93, R95, R96), with its ack unit (R102). -/

/-- `s` when the ack unit of an acknowledged byte is over, and the block listens to the next. -/
def State.afterAck (s : State) (rest : List Request) : State :=
  { s with shiftReg := 0#8, pending := rest, output := some (.wire 0#1) }.listenData

/-- An acknowledged byte and its ack unit: the wire carries the byte and then the block's 0, whatever the level at which
the master leaves the line. -/
theorem runs_acked (h : s.AwaitsByte) (b : Byte) (rest : List Request)
    (ack : overflowStep (s.latched b (.bit 1#1 :: rest)) = .next u.driveAck) (hst : u.engineState ≠ .masterRead) :
    Runs 9 { s with pending := sendByte b ++ rest } (wireTrace (wireBits b ++ [0#1])) (u.afterAck rest) := by
  obtain ⟨hcfg, -, hpending, -⟩ := overflowStep_frame ack
  have hc : u.cfg.wf := by rw [← State.driveAck_cfg, hcfg]; exact h.cfg_wf
  have acknowledged : step u.driveAck = .next (u.afterAck rest) := by
    rw [step_request (rest := rest) hpending hc]
    exact (execBit_driveAck { u with pending := rest } 1#1).trans (overflowStep_other rfl hst)
  have unit := (runs_byte h b _ ack).trans (.of_step (by rw [hpending]; exact nofun) acknowledged)
  have trace : wireTrace (wireBits b ++ [0#1]) = wireTrace (wireBits b) ++ [(u.afterAck rest).output] := List.map_append
  rw [trace]
  simpa [sendByte] using unit

/-! A write transaction, part by part (R66, R74). -/

/-- `s` when the write address and a register address in range have been accepted, but for the line and the counter. -/
def State.pointedAt (s : State) (i : Byte) : State := { s with engineState := .masterWrite, ptr := i }

/-- `s` when a data byte has been accepted at the pointer, but for the line and the counter (R96). -/
def State.stored (s : State) (b : Byte) : State :=
  { (s.acceptByte s.ptr.toNat b).advancePtr with engineState := .masterWrite }

@[simp] theorem State.stored_cfg (s : State) (b : Byte) : (s.stored b).cfg = s.cfg := by simp [State.stored]

theorem State.stored_ptr (s : State) (b : Byte) : (s.stored b).ptr = nextIndex s.cfg.n s.ptr := by simp [State.stored]

theorem State.stored_tally (s : State) (b : Byte) :
    (s.stored b).tally = if maskAt s.cfg s.ptr.toNat = 0#8 then s.tally else countUp s.cfg s.tally := by
  simp [State.stored]

theorem State.readReg_stored_same (b : Byte) (h : Memory.wf s.cfg s.regs) :
    (s.stored b).readReg s.ptr.toNat = mergeMasked (s.readReg s.ptr.toNat) (maskAt s.cfg s.ptr.toNat) b :=
  State.readReg_acceptByte_same b h

theorem State.readReg_stored_other (b : Byte) {j : Nat} (h : j ≠ s.ptr.toNat) :
    (s.stored b).readReg j = s.readReg j :=
  State.readReg_acceptByte_other b h

/-- With the pointer inside the register file, a data byte is stored there and acknowledged (R96). -/
theorem overflowStep_stores (hph : s.phase = .preAck) (hst : s.engineState = .masterWrite)
    (hp : s.ptr.toNat < s.cfg.n) : overflowStep s = .next (s.stored s.shiftReg).driveAck := by
  rw [overflowStep_wr hph hst, exec_p1Wr]
  exact atPointer_of_lt hp

theorem runs_start (hc : s.cfg.wf) (rest : List Request) :
    Runs 1 { s with pending := .start :: rest } [none] ({ s with pending := rest }.awaitAddress.emit none) :=
  .of_step (by simp) (step_start s rest hc)

theorem runs_stop (hc : s.cfg.wf) (rest : List Request) :
    Runs 1 { s with pending := .stop :: rest } [none] { s with pending := rest, stopFlag := true, output := none } :=
  .of_step (by simp) (step_stop s rest hc)

/-- The device's own write address sets the pointer to 0 and is acknowledged (R93). -/
theorem runs_writeAddress (h : s.AwaitsByte) (hst : s.engineState = .addrMatch) (rest : List Request) :
    Runs 9 { s with pending := sendByte (writeAddress s.cfg) ++ rest }
      (wireTrace (wireBits (writeAddress s.cfg) ++ [0#1]))
      ({ s with engineState := .regAddr, ptr := 0#8 }.afterAck rest) := by
  have own : addrMatches s.cfg (addrOf (writeAddress s.cfg)) = true := by simp [writeAddress]
  have write : rwOf (writeAddress s.cfg) = 0#1 := by simp [writeAddress]
  exact runs_acked h _ rest (u := { s.latched _ (.bit 1#1 :: rest) with engineState := .regAddr, ptr := 0#8 })
    (overflowStep_addrWr h.phase_eq hst own write) nofun

/-- A register address in range becomes the pointer and is acknowledged (R95). -/
theorem runs_registerAddress (h : s.AwaitsByte) (hst : s.engineState = .regAddr) {i : Byte} (hn : i.toNat < s.cfg.n)
    (rest : List Request) :
    Runs 9 { s with pending := sendByte i ++ rest } (wireTrace (wireBits i ++ [0#1])) ((s.pointedAt i).afterAck rest) :=
  runs_acked h i rest (u := (s.latched i (.bit 1#1 :: rest)).pointedAt i) (overflowStep_regAck h.phase_eq hst hn) nofun

/-- Accepting a byte does not look at the latch it came from. -/
theorem State.acceptByte_latched (s : State) (p : Nat) (d b : Byte) (rest : List Request) :
    (s.latched b rest).acceptByte p d = (s.acceptByte p d).latched b rest := by
  have same_cfg : (s.latched b rest).cfg = s.cfg := rfl
  unfold State.acceptByte
  rw [same_cfg]
  split <;> rfl

/-- A data byte is accepted at the pointer and acknowledged (R96). -/
theorem runs_dataByte (h : s.AwaitsByte) (hst : s.engineState = .masterWrite) (hp : s.ptr.toNat < s.cfg.n) (b : Byte)
    (rest : List Request) :
    Runs 9 { s with pending := sendByte b ++ rest } (wireTrace (wireBits b ++ [0#1])) ((s.stored b).afterAck rest) := by
  have accepted : overflowStep (s.latched b (.bit 1#1 :: rest)) =
      .next ((s.latched b (.bit 1#1 :: rest)).stored b).driveAck :=
    overflowStep_stores (s := s.latched b _) h.phase_eq hst hp
  have stored_latched : ((s.latched b (.bit 1#1 :: rest)).stored b).afterAck rest = (s.stored b).afterAck rest := by
    rw [State.stored, State.acceptByte_latched]
    rfl
  rw [← stored_latched]
  exact runs_acked h b rest accepted nofun

/-- What every write transaction begins with: `START`, the write address and a register address in range. -/
theorem runs_writeHeader (hc : s.cfg.wf) {i : Byte} (hn : i.toNat < s.cfg.n) (rest : List Request) :
    Runs 19 { s with pending := .start :: (sendByte (writeAddress s.cfg) ++ (sendByte i ++ rest)) }
      (none :: wireTrace (wireBits (writeAddress s.cfg) ++ [0#1] ++ wireBits i ++ [0#1]))
      ((s.pointedAt i).afterAck rest) := by
  have address := runs_writeAddress (s := { s with pending := [] }.awaitAddress.emit none)
    ⟨hc, rfl, rfl, rfl⟩ rfl (sendByte i ++ rest)
  have offset := runs_registerAddress
    (s := { s with engineState := .regAddr, ptr := 0#8 }.afterAck (sendByte i ++ rest))
    ⟨hc, rfl, rfl, rfl⟩ rfl hn rest
  have trace : none :: wireTrace (wireBits (writeAddress s.cfg) ++ [0#1] ++ wireBits i ++ [0#1]) =
      [none] ++ wireTrace (wireBits (writeAddress s.cfg) ++ [0#1]) ++ wireTrace (wireBits i ++ [0#1]) := by simp
  rw [trace]
  exact ((runs_start hc _).trans address).trans offset

end Sys2Proof.Machine

open Sys2Proof Sys2Proof.Machine

/-- Settles O5, by the three ranges of `BitCount`. -/
theorem bitShiftsTheWireValueIn : Obligations.BitShiftsTheWireValueIn := by
  intro m w s hw
  rw [← State.wireLevel_eq] at hw
  subst hw
  rw [← shiftIn_eq_ofNat]
  refine ⟨execBit_disarmed m, execBit_counting m, fun hi hb => ?_, fun hb => ?_⟩
  · exact State.wireLevel_listening m (hi.disarmed_listens hb).1
  · rw [exec_bit, execBit_completing m hb, State.countBit, State.emit_bitCount, hb]
    rfl

/-- Settles O6: each row's selector is met, and every engine step ends in one of the three ways. -/
theorem overflowSelectsTheTableRow : Obligations.OverflowSelectsTheTableRow := by
  intro s
  rw [← addrOf_eq_ofNat, ← rwOf_eq_ofNat]
  refine ⟨fun hph => ⟨fun hst => ⟨fun h => ?_, fun h => ⟨fun hrw => ?_, fun hrw => ?_⟩⟩,
    fun hst => ⟨overflowStep_regNak hph hst, overflowStep_regAck hph hst⟩, overflowStep_wr hph, overflowStep_rd hph⟩,
    fun hph => ⟨fun hst => ⟨fun h => ?_, fun h => ?_⟩, overflowStep_other hph⟩, fun _ => overflowStep_unit⟩
  · exact overflowStep_addrNak hph hst (addrMatches_addrOf_eq_false_iff.2 h)
  · exact overflowStep_addrRd hph hst (addrMatches_addrOf_iff.2 h) (rwOf_eq_iff.2 hrw)
  · exact overflowStep_addrWr hph hst (addrMatches_addrOf_iff.2 h) (rwOf_eq_iff.2 hrw)
  · exact overflowStep_rdNak hph hst (rwOf_eq_iff.2 h)
  · exact overflowStep_rdAck hph hst (rwOf_eq_iff.2 h)

/-- Settles O7: under the invariant the pointer is inside the register file. -/
theorem everyBitCompletes : Obligations.EveryBitCompletes := by
  intro m s hi
  rw [← State.wireLevel_eq]
  exact execBit_completes m hi.ptr_lt

/-- Settles O52: the eight bits shift the byte in, and the decoder reads it. -/
theorem byteIsReceivedMostSignificantBitFirst : Obligations.ByteIsReceivedMostSignificantBitFirst := by
  intro s b rest hc hd hph hb
  have decoded : overflowStep (s.latched b rest) =
      exec (decodeStep s.cfg .preAck s.engineState b).toInstr (s.latched b rest) :=
    overflowStep_of_selects (by rw [← hph]; exact decodeStep_selects ..)
  exact (runSteps_byte ⟨hc, hd, hph, hb⟩ b rest).trans decoded

/-- Settles O53: the address byte is NAKed. -/
theorem foreignTransactionChangesNothing : Obligations.ForeignTransactionChangesNothing := by
  intro s b ms rest hc hst hd hph hb h0 ha
  have foreign : addrMatches s.cfg (addrOf b) = false := addrMatches_addrOf_eq_false_iff.2 ⟨h0, ha⟩
  obtain ⟨o, h⟩ := runs_naked ⟨hc, hd, hph, hb⟩ b ms rest (overflowStep_addrNak hph hst foreign)
  rw [← hst] at h
  exact ⟨⟨o, h.run⟩, h.trace⟩

/-- Settles O54: the register-address byte is NAKed. -/
theorem invalidOffsetChangesNothing : Obligations.InvalidOffsetChangesNothing := by
  intro s b ms rest hc hst hd hph hb hn
  obtain ⟨o, h⟩ := runs_naked ⟨hc, hd, hph, hb⟩ b ms rest (overflowStep_regNak hph hst hn)
  exact ⟨⟨o, h.run⟩, h.trace⟩

/-- Settles O55: the block's own ACK is the 0 that selects `P2.RD.ACK`. -/
theorem firstReadByteIsLoadedByTheOwnAck : Obligations.FirstReadByteIsLoadedByTheOwnAck := by
  intro s t a m hp h
  cases h
  have own_ack := execBit_driveAck { s with engineState := .masterRead } m
  exact own_ack.trans (overflowStep_loads rfl rfl (by simp [rwOf]) hp)

/-- Settles O57: the header of a write, and its stop condition. -/
theorem setOffsetMovesOnlyThePointer : Obligations.SetOffsetMovesOnlyThePointer := by
  intro s i rest hi hn
  have header := runs_writeHeader hi.cfg_wf hn (.stop :: rest)
  have all := header.trans (runs_stop (s := (s.pointedAt i).afterAck (.stop :: rest)) hi.cfg_wf rest)
  have requests : setOffset s.cfg i ++ rest =
      .start :: (sendByte (writeAddress s.cfg) ++ (sendByte i ++ .stop :: rest)) := by simp [setOffset, writeFrame]
  rw [requests]
  exact ⟨all.run, all.trace⟩

/-- Settles O58: the header of a write, the data byte accepted at its index, and the stop condition. -/
theorem writeTransactionStoresTheMaskedByte : Obligations.WriteTransactionStoresTheMaskedByte := by
  intro s i b rest hi hn
  have header := runs_writeHeader hi.cfg_wf hn (sendByte b ++ .stop :: rest)
  let pointed := (s.pointedAt i).afterAck (sendByte b ++ .stop :: rest)
  have data := runs_dataByte (s := pointed) ⟨hi.cfg_wf, rfl, rfl, rfl⟩ rfl hn b (.stop :: rest)
  have stop := runs_stop (s := (pointed.stored b).afterAck (.stop :: rest))
    ((pointed.stored_cfg b).symm ▸ hi.cfg_wf) rest
  have all := (header.trans data).trans stop
  have requests : writeRegs s.cfg i [b] ++ rest =
      .start :: (sendByte (writeAddress s.cfg) ++ (sendByte i ++ (sendByte b ++ .stop :: rest))) := by
    simp [writeRegs, writeFrame]
  rw [requests]
  refine ⟨_, all.run, fun k hk => ?_, fun j hj => State.readReg_stored_other (s := pointed) b hj, ?_,
    pointed.stored_tally b, rfl, rfl, rfl, rfl, rfl, ?_⟩
  · have merged := State.readReg_stored_same (s := pointed) b hi.regs_wf
    exact (congrArg (·.getLsbD k) merged).trans (mergeMasked_bit _ _ _ k hk)
  · exact (congrArg BitVec.toNat (pointed.stored_ptr b)).trans (nextIndex_toNat_mod i hi.cfg_wf.1 hi.cfg_wf.2.1)
  · rw [all.trace]
    simp

/-- Settles O3, by the definition of `START`. -/
theorem startRestartsTheSequencer : Obligations.StartRestartsTheSequencer :=
  fun _ => rfl

/-- Settles O4, by the definition of `STOP`. -/
theorem stopSetsOnlyTheStopFlag : Obligations.StopSetsOnlyTheStopFlag :=
  fun _ => rfl

end

section
/-!
PROOFS. Phase 1 (41_overflow_phase1): the helpers on the wire (R90), the pre-ack rows with their selectors (R91 to R98),
and the direction table of section 7 (R99), which every step keeps.
-/

namespace Sys2Proof.Machine

variable {s t : State}

/-! The direction table (R99), helper by helper (R90): the engine states in which each may end a step. -/

/-- Listening to a data unit fits every engine state but the one that sends data. -/
theorem State.listenData_followsLineTable (hst : s.engineState ≠ .masterRead) : s.listenData.FollowsLineTable := by
  simp only [State.FollowsLineTable, State.listenData_engineState, State.listenData_phase]
  cases h : s.engineState
  case addrMatch => rfl
  case regAddr | masterWrite => exact ⟨rfl, Nat.succ_ne_zero 7⟩
  case masterRead => exact absurd h hst

/-- The block's own ACK fits every engine state that follows an accepted byte. -/
theorem State.driveAck_followsLineTable (hst : s.engineState ≠ .addrMatch) : s.driveAck.FollowsLineTable := by
  simp only [State.FollowsLineTable, State.driveAck_engineState, State.driveAck_phase]
  cases h : s.engineState
  case addrMatch => exact absurd h hst
  case regAddr | masterWrite => exact ⟨rfl, rfl⟩
  case masterRead => exact .inr ⟨rfl, rfl⟩

/-- Listening to an ack unit fits the engine state in which the master acknowledges. -/
theorem State.listenAck_followsLineTable (hst : s.engineState = .masterRead) : s.listenAck.FollowsLineTable := by
  simp only [State.FollowsLineTable, State.listenAck_engineState, State.listenAck_phase, hst]
  exact .inl rfl

/-- In `AddrMatch` the block listens to a data unit or is disarmed. -/
theorem State.followsLineTable_addrMatch (hst : s.engineState = .addrMatch) (hph : s.phase = .preAck)
    (hd : s.dir = .listening) : s.FollowsLineTable := by
  simpa only [State.FollowsLineTable, hst, hph] using hd

/-! The direction table over one answer. -/

/-- Whatever the state was, the row selected ends in one that follows the table. -/
theorem runStep_followsLineTable {ph : Phase} {st : EngineState} {b : Byte} {e : EngineStep}
    (selected : Selects s.cfg ph st b e) (hst : s.engineState = st) (h : runStep e s = .next t) :
    t.FollowsLineTable := by
  cases selected <;> simp only [runStep] at h
  case addrNak | regNak | rdNak => cases h; exact State.followsLineTable_addrMatch rfl rfl rfl
  case addrRd =>
    cases h
    exact State.driveAck_followsLineTable (s := { s with engineState := .masterRead }) nofun
  case addrWr =>
    cases h
    exact State.driveAck_followsLineTable (s := { s with ptr := 0#8, engineState := .regAddr }) nofun
  case regAck => cases h; exact State.driveAck_followsLineTable (s := s.pointedAt b) nofun
  case wr =>
    obtain ⟨-, rfl⟩ := atPointer_next.1 h
    exact State.driveAck_followsLineTable (s := s.stored b) nofun
  case rd => cases h; exact State.listenAck_followsLineTable hst
  case rdAck =>
    obtain ⟨-, rfl⟩ := atPointer_next.1 h
    exact And.intro rfl (Nat.succ_ne_zero 7)
  case other sends => cases h; exact State.listenData_followsLineTable (hst ▸ sends)

theorem overflowStep_followsLineTable (h : overflowStep s = .next t) : t.FollowsLineTable :=
  runStep_followsLineTable (decodeStep_selects ..) rfl h

/-- A bit that is not the last of its unit keeps the table: only a data unit has such bits, and it stays armed. -/
theorem State.FollowsLineTable.counted (ht : s.FollowsLineTable) (hi : s.Inv) (m : Level) (hb : 2 ≤ s.bitCount) :
    (s.counted m).FollowsLineTable := by
  have data_unit : s.phase = .preAck := by
    cases hph : s.phase
    case preAck => rfl
    case postAck => have := hi.postAck_one hph; omega
  have still_armed : (s.counted m).armed := Nat.sub_ne_zero_of_lt hb
  simp only [State.FollowsLineTable, State.countBit_engineState, State.countBit_phase, State.emit_engineState,
    State.emit_phase, data_unit] at ht ⊢
  cases hst : s.engineState <;> rw [hst] at ht
  case addrMatch => exact ht
  case regAddr | masterWrite | masterRead => exact ⟨ht.1, still_armed⟩

/-- The answer to any request keeps the table, if a `CHECK_STOP` that finds a stop finds the block listening to a data
unit. -/
theorem State.Answers.followsLineTable {r : Request} (h : s.Answers r t) (hi : s.Inv) (ht : s.FollowsLineTable)
    (free : r = .checkStop → s.stopFlag = true → s.dir = .listening ∧ s.phase = .preAck) : t.FollowsLineTable := by
  cases h with
  | start | init => exact State.listenData_followsLineTable (s := { s with engineState := .addrMatch }) nofun
  | reset => exact State.followsLineTable_addrMatch rfl rfl rfl
  | bitCounting m hb => exact ht.counted hi m hb
  | bitCompleting _ _ _ ho => exact overflowStep_followsLineTable ho
  | checkStopDone hf =>
    obtain ⟨hd, hph⟩ := free rfl hf
    exact State.followsLineTable_addrMatch rfl hph hd
  | stop | bitDisarmed | regRead | regWriteRaw | maskRead | checkStopIdle => exact ht

/-- Outside the executions that R153 leaves out, a `CHECK_STOP` that finds a stop finds the block listening to a data
unit. -/
theorem State.free_of_not_pollsMidTransaction (h : ¬ s.pollsMidTransaction) (hp : s.pending.head? = some .checkStop)
    (hf : s.stopFlag = true) : s.dir = .listening ∧ s.phase = .preAck := by
  have neither : ¬ (s.dir = .driving ∨ s.phase = .postAck) := fun busy => h ⟨hp, hf, busy⟩
  obtain ⟨not_driving, not_postAck⟩ := not_or.1 neither
  constructor
  · cases hd : s.dir
    case listening => rfl
    case driving => exact absurd hd not_driving
  · cases hph : s.phase
    case preAck => rfl
    case postAck => exact absurd hph not_postAck

/-! A master data byte (R96). -/

theorem execP1Wr_stores (d : Byte) (hp : s.ptr.toNat < s.cfg.n) : execP1Wr d s = .next (s.stored d).driveAck :=
  atPointer_of_lt hp

theorem State.stored_regs_of_unmasked (s : State) (d : Byte) (h : maskAt s.cfg s.ptr.toNat = 0#8) :
    (s.stored d).regs = s.regs := by
  rw [State.stored, State.acceptByte_unmasked d h, State.advancePtr_regs]

/-- Accepting a data byte writes the registers, the tally, the pointer and the engine state only. -/
theorem State.stored_frame (s : State) (d : Byte) : s.stored d = { s with
    regs := (s.stored d).regs, tally := (s.stored d).tally, ptr := (s.stored d).ptr, engineState := .masterWrite } := by
  unfold State.stored State.acceptByte
  split <;> rfl

/-! The encoding of the engine state (R12). -/

theorem EngineState.code_surjective (v : BitVec 2) : ∃ st : EngineState, st.code = v := by
  have values : ∀ v : BitVec 2, v = 0#2 ∨ v = 1#2 ∨ v = 2#2 ∨ v = 3#2 := by decide
  rcases values v with rfl | rfl | rfl | rfl
  exacts [⟨.addrMatch, rfl⟩, ⟨.regAddr, rfl⟩, ⟨.masterRead, rfl⟩, ⟨.masterWrite, rfl⟩]

theorem decodeStep_ne_defensive (c : Config) (ph : Phase) (st : EngineState) (b : Byte) :
    decodeStep c ph st b ≠ .defensive :=
  fun h => nomatch h ▸ decodeStep_selects c ph st b

end Sys2Proof.Machine

open Sys2Proof Sys2Proof.Machine

/-- Settles O42: the answer to any request keeps the table, but for the executions left out. -/
theorem everyStepKeepsTheLineTable : Obligations.EveryStepKeepsTheLineTable := by
  intro s t hi ht allowed h
  rcases step_answers h with rfl | ⟨r, rest, hp, hr⟩
  · exact ht
  · refine hr.followsLineTable (hi.ignores _ _ rest _ _) ht fun poll hf => ?_
    rw [poll] at hp
    exact State.free_of_not_pollsMidTransaction (s := s) allowed hp hf

/-- Settles O22: the byte is merged at the pointer where the mask is not 0, and the frame of `State.stored`. -/
theorem masterWriteIsMasked : Obligations.MasterWriteIsMasked := by
  refine ⟨fun d s hi => ⟨_, execP1Wr_stores d hi.ptr_lt, fun hm => ⟨fun k hk => ?_, ?_⟩, fun hm => ⟨?_, ?_⟩,
    fun j hj => State.readReg_stored_other d hj, ?_, ?_⟩, fun s => overflowStep_wr⟩
  · have merged := State.readReg_stored_same d hi.regs_wf
    exact (congrArg (·.getLsbD k) merged).trans (mergeMasked_bit _ _ _ k hk)
  · exact (s.stored_tally d).trans (if_neg hm)
  · exact s.stored_regs_of_unmasked d hm
  · exact (s.stored_tally d).trans (if_pos hm)
  · exact (congrArg BitVec.toNat (s.stored_ptr d)).trans (nextIndex_toNat_mod s.ptr hi.cfg_wf.1 hi.cfg_wf.2.1)
  · exact congrArg State.driveAck (s.stored_frame d)

/-- Settles O15: the row drives NAK, the four states are the four codes, and no selector gives the row. -/
theorem noStateValueSelectsTheDefensiveRow : Obligations.NoStateValueSelectsTheDefensiveRow :=
  ⟨fun _ => rfl, EngineState.code_surjective, decodeStep_ne_defensive⟩

/-- Settles O17, by the row's selector: the address matcher answers false. -/
theorem addressMismatchIsNaked : Obligations.AddressMismatchIsNaked :=
  ⟨fun _ _ _ => rfl,
    fun _ hph hst h0 ha => overflowStep_addrNak hph hst (addrMatches_addrOf_eq_false_iff.2 ⟨h0, ha⟩)⟩

/-- Settles O18, by the row's selector: the address matcher answers true, and R/W is 1. -/
theorem addressMatchReadIsAcked : Obligations.AddressMatchReadIsAcked :=
  ⟨fun _ _ => rfl,
    fun _ hph hst ha hrw => overflowStep_addrRd hph hst (addrMatches_addrOf_iff.2 ha) (rwOf_eq_iff.2 hrw)⟩

/-- Settles O19, by the row's selector: the address matcher answers true, and R/W is 0. -/
theorem addressMatchWriteIsAcked : Obligations.AddressMatchWriteIsAcked :=
  ⟨fun _ _ => rfl,
    fun _ hph hst ha hrw => overflowStep_addrWr hph hst (addrMatches_addrOf_iff.2 ha) (rwOf_eq_iff.2 hrw)⟩

/-- Settles O20, by the row's selector, the invariant's clause on `RegAddr`, and the range of a byte. -/
theorem offsetOutOfRangeIsNaked : Obligations.OffsetOutOfRangeIsNaked :=
  ⟨fun _ _ => rfl, fun _ hph hst hn => overflowStep_regNak hph hst hn, fun _ hi => hi.regAddr_ptr,
    fun s hn => hn ▸ s.shiftReg.isLt⟩

/-- Settles O21, by the row's selector. -/
theorem offsetInRangeLoadsThePointer : Obligations.OffsetInRangeLoadsThePointer :=
  ⟨fun _ _ => rfl, fun _ hph hst hn => overflowStep_regAck hph hst hn⟩

/-- Settles O23, by the row's selector. -/
theorem readByteReleasesTheLine : Obligations.ReadByteReleasesTheLine :=
  ⟨fun _ => rfl, fun _ hph hst => overflowStep_rd hph hst⟩

/-- Settles O24: the helpers by definition, the ACK's 0 on the wire, and a `BIT` that a released block ignores. -/
theorem ackPullsLowAndNakReleases : Obligations.AckPullsLowAndNakReleases :=
  fun m s => ⟨rfl, rfl, rfl, rfl, rfl, rfl, rfl, s.wireLevel_driveAck m, State.wireLevel_listening m rfl,
    execBit_ignored (s := s.driveNak) m rfl rfl⟩

end

section
/-!
PROOFS. Phase 2 (42_overflow_phase2): the post-ack rows with their selectors (R100 to R102), and a whole read (R104) as a
run composed of bytes that the block sends.
-/

namespace Sys2Proof.Machine

variable {s t : State}

/-! The row of an ACK in `MasterRead` (R101). -/

theorem execP2RdAck_loads (hp : s.ptr.toNat < s.cfg.n) :
    execP2RdAck s = .next { s with
      shiftReg := s.readReg s.ptr.toNat, ptr := nextIndex s.cfg.n s.ptr, dir := .driving, bitCount := 8,
      phase := .preAck, engineState := .masterRead } :=
  atPointer_of_lt hp

/-! The pointer over a whole read: each byte advances it by one place, modulo `N` (R13). -/

/-- Advances of the pointer add up modulo `N`. -/
theorem iterate_nextIndex_toNat {n : Nat} (h0 : 0 < n) (hn : n ≤ 256) (k : Nat) {p : Byte} (hp : p.toNat < n) :
    ((nextIndex n)^[k] p).toNat = (p.toNat + k) % n := by
  induction k with
  | zero => exact (Nat.mod_eq_of_lt hp).symm
  | succ k ih =>
    rw [Function.iterate_succ_apply', nextIndex_toNat_mod _ h0 hn, ih, Nat.mod_add_mod]
    rfl

/-! The bits of a byte that the block sends: the shift register turns, bit 7 onto the wire and in again at bit 0 (R82). -/

/-- The first `n` bits that a driving block puts on a wire released by the master, from the byte `x` in `ShiftReg`. -/
def sentBits : Nat → Byte → List Level
  | 0, _ => []
  | n + 1, x => bitOf x 7 :: sentBits n (shiftIn x (bitOf x 7))

/-- A shift moves each bit up one place. -/
theorem bitOf_shiftIn (x : Byte) (w : Level) {k : Nat} (hk : k < 7) : bitOf (shiftIn x w) (k + 1) = bitOf x k := by
  apply BitVec.eq_of_getLsbD_eq
  intro i hi
  have moved := shiftIn_bit x w (k + 1) (by omega)
  obtain rfl : i = 0 := by omega
  simpa [bitOf, -BitVec.getLsbD_eq_getElem] using moved

/-- The bits go out in the order of the wire (R43). -/
theorem sentBits_seven (b : Byte) : sentBits 7 b = (wireBits b).take 7 := by
  simp [sentBits, wireBits, bitOf_shiftIn]

/-- When seven bits are out, the last one is next. -/
theorem bitOf_after_seven (b : Byte) : bitOf (((wireBits b).take 7).foldl shiftIn b) 7 = bitOf b 0 := by
  simp [wireBits, bitOf_shiftIn]

/-- On a line that the master releases, a driving block's bit is the wire value. -/
theorem State.wireLevel_driving (hd : s.dir = .driving) : s.wireLevel 1#1 = bitOf s.shiftReg 7 := by
  rw [State.wireLevel, State.contribution_driving hd]
  exact BitVec.allOnes_and

theorem State.counted_driving (x : Byte) (rs : List Request) (hd : s.dir = .driving) :
    (s.withUnit x rs).counted 1#1 = (s.heard (bitOf x 7)).withUnit (shiftIn x (bitOf x 7)) rs := by
  have wire : (s.withUnit x rs).wireLevel 1#1 = bitOf x 7 := State.wireLevel_driving hd
  rw [State.counted, wire]
  rfl

theorem step_withUnit_sends {x : Byte} {rs : List Request} (hc : s.cfg.wf) (hd : s.dir = .driving)
    (hb : 2 ≤ s.bitCount) : step (s.withUnit x (.bit 1#1 :: rs)) =
      .next ((s.heard (bitOf x 7)).withUnit (shiftIn x (bitOf x 7)) rs) := by
  rw [step_withUnit hc, execBit_counting (s := s.withUnit x rs) _ hb, ← State.counted_driving x rs hd]

theorem step_withUnit_sends_last {x : Byte} {rs : List Request} (hc : s.cfg.wf) (hd : s.dir = .driving)
    (hb : s.bitCount = 1) : step (s.withUnit x (.bit 1#1 :: rs)) =
      overflowStep ((s.heard (bitOf x 7)).withUnit (shiftIn x (bitOf x 7)) rs) := by
  rw [step_withUnit hc, execBit_completing (s := s.withUnit x rs) _ hb, ← State.counted_driving x rs hd]

/-- Bits of a read byte that leave it unfinished are on the wire, and turn in the shift register. -/
theorem runs_sent_bits (n : Nat) (rest : List Request) {s : State} {x : Byte} (hc : s.cfg.wf)
    (hd : s.dir = .driving) (hb : n < s.bitCount) :
    ∃ o, Runs n (s.withUnit x (List.replicate n (.bit 1#1) ++ rest)) (wireTrace (sentBits n x))
      ({ s with bitCount := s.bitCount - n, output := o }.withUnit ((sentBits n x).foldl shiftIn x) rest) := by
  induction n generalizing s x with
  | zero => exact ⟨s.output, .refl _⟩
  | succ n ih =>
    have first := Runs.of_step (by simp [State.withUnit])
      (step_withUnit_sends (x := x) (rs := List.replicate n (.bit 1#1) ++ rest) hc hd (by omega))
    obtain ⟨o, others⟩ := ih (s := s.heard (bitOf x 7)) (x := shiftIn x (bitOf x 7)) hc hd
      (by simp only [State.heard]; omega)
    refine ⟨o, ?_⟩
    have both := first.trans others
    simpa [State.heard, State.withUnit, sentBits, List.replicate_succ, Nat.add_comm, Nat.sub_sub] using both

/-- Eight bits in which the master releases the line send the byte in `ShiftReg`, and it is there again when the overflow
step runs. -/
theorem runs_sentByte (hc : s.cfg.wf) (hd : s.dir = .driving) (hb : s.bitCount = 8) (rest : List Request)
    (ho : overflowStep (s.latched s.shiftReg rest) = .next t) :
    Runs 8 { s with pending := List.replicate 8 (.bit 1#1) ++ rest } (wireTrace (wireBits s.shiftReg)) t := by
  obtain ⟨o, seven⟩ := runs_sent_bits 7 (.bit 1#1 :: rest) (x := s.shiftReg) hc hd (by omega)
  rw [sentBits_seven] at seven
  have turned : shiftIn (((wireBits s.shiftReg).take 7).foldl shiftIn s.shiftReg) (bitOf s.shiftReg 0) = s.shiftReg :=
    foldl_shiftIn_wireBits s.shiftReg s.shiftReg
  have last := step_withUnit_sends_last (s := { s with bitCount := s.bitCount - 7, output := o })
    (x := ((wireBits s.shiftReg).take 7).foldl shiftIn s.shiftReg) (rs := rest) hc hd (by simp [hb])
  rw [bitOf_after_seven, turned] at last
  have latched : step _ = .next t := last.trans (by simpa [State.heard, State.withUnit, State.latched, hb] using ho)
  obtain ⟨-, -, -, houtput, -⟩ := overflowStep_frame ho
  have eight := seven.trans (.of_step (by simp [State.withUnit]) latched)
  rw [houtput] at eight
  exact eight

/-! A byte that the master reads, with its ack unit (R97, R100, R101). -/

/-- `s` when the register at `p` has been loaded and is about to be sent (R101): the pointer is past it, and the ACK that
asked for it was the last output. -/
def State.loaded (s : State) (p : Byte) (rest : List Request) : State :=
  { s with
    shiftReg := s.readReg p.toNat, ptr := nextIndex s.cfg.n p, dir := .driving, bitCount := 8, phase := .preAck,
    engineState := .masterRead, pending := rest, output := some (.wire 0#1) }

/-- `s` when the register at `p` has been sent, the master has answered `a`, and the overflow step is about to run. -/
def State.answered (s : State) (p : Byte) (a : Level) (rest : List Request) : State :=
  { s.loaded p rest with
    shiftReg := shiftIn (s.readReg p.toNat) a, dir := .listening, bitCount := 0, phase := .postAck,
    output := some (.wire a) }

/-- `s` when the master has ended the read with NAK after the register at `p` (R100). -/
def State.readEnded (s : State) (p : Byte) (rest : List Request) : State :=
  { s.answered p 1#1 rest with ptr := 0#8, engineState := .addrMatch }.release

/-- A byte of a read and its ack unit: the wire carries the register at `p` and then the master's answer. -/
theorem runs_answeredByte (hc : s.cfg.wf) {p : Byte} {a : Level} {rest : List Request}
    (ho : overflowStep (s.answered p a rest) = .next t) :
    Runs 9 (s.loaded p (takeByte a ++ rest)) (wireTrace (wireBits (s.readReg p.toNat) ++ [a])) t := by
  let loaded := s.loaded p (.bit a :: rest)
  have byte := runs_sentByte (s := loaded) hc rfl rfl (.bit a :: rest) (overflowStep_rd rfl rfl)
  have answer : step (loaded.latched loaded.shiftReg (.bit a :: rest)).listenAck = .next t :=
    (step_withUnit_completing (s := (loaded.latched loaded.shiftReg (.bit a :: rest)).listenAck) hc rfl rfl).trans ho
  obtain ⟨-, -, -, houtput, -⟩ := overflowStep_frame ho
  have unit := byte.trans (.of_step (List.cons_ne_nil _ _) answer)
  rw [houtput] at unit
  have trace : wireTrace (wireBits (s.readReg p.toNat) ++ [a]) = wireTrace (wireBits (s.readReg p.toNat)) ++
      [some (.wire a)] := List.map_append
  rw [trace]
  exact unit

/-- The bit shifted in last is the ack bit (R68). -/
theorem rwOf_shiftIn (x : Byte) (w : Level) : rwOf (shiftIn x w) = w := by
  rw [rwOf_eq_iff, shiftIn_eq_ofNat, BitVec.toNat_ofNat]
  omega

/-- A byte that the master takes with ACK: the next register is loaded. -/
theorem runs_ackedByte (hc : s.cfg.wf) (p : Byte) (rest : List Request) :
    Runs 9 (s.loaded p (takeByte 0#1 ++ rest)) (wireTrace (wireBits (s.readReg p.toNat) ++ [0#1]))
      (s.loaded (nextIndex s.cfg.n p) rest) :=
  runs_answeredByte hc (overflowStep_loads rfl rfl (rwOf_shiftIn _ _) (nextIndex_lt p hc.1 hc.2.1))

/-- A byte that the master answers with NAK: the read is over. -/
theorem runs_nakedByte (hc : s.cfg.wf) (p : Byte) (rest : List Request) :
    Runs 9 (s.loaded p (takeByte 1#1 ++ rest)) (wireTrace (wireBits (s.readReg p.toNat) ++ [1#1]))
      (s.readEnded p rest) :=
  runs_answeredByte hc (overflowStep_rdNak rfl rfl (rwOf_shiftIn _ _))

/-! A whole read (R104). -/

/-- The trace of bytes that the master takes with ACK. -/
abbrev ackedTrace (bs : List Byte) : List (Option Output) := bs.flatMap fun b => wireTrace (wireBits b ++ [0#1])

/-- The block has accepted its read address and drives its own ACK (R92). -/
structure State.AcksReadAddress (s : State) : Prop where
  inv : s.Inv
  engineState_eq : s.engineState = .masterRead
  phase_eq : s.phase = .postAck
  dir_eq : s.dir = .driving
  shiftReg_eq : s.shiftReg = 0#8

/-- The block's own ACK of the read address loads the first register. -/
theorem runs_ownAck (h : s.AcksReadAddress) (rest : List Request) :
    Runs 1 { s with pending := .bit 1#1 :: rest } [some (.wire 0#1)] (s.loaded s.ptr rest) := by
  have acking : { s with pending := rest } = { s with pending := rest }.driveAck := by
    simp only [State.driveAck, State.armAck, ← h.shiftReg_eq, ← h.dir_eq, ← h.phase_eq,
      ← h.inv.postAck_one h.phase_eq]
  have load : step { s with pending := .bit 1#1 :: rest } = .next (s.loaded s.ptr rest) := by
    rw [step_bit s _ rest h.inv.cfg_wf, acking, execBit_driveAck]
    exact overflowStep_loads rfl h.engineState_eq (by simp [rwOf]) h.inv.ptr_lt
  exact .of_step (by simp) load

/-- Bytes that the master takes with ACK: the registers in index order, from the one loaded. -/
theorem runs_ackedBytes (hc : s.cfg.wf) (k : Nat) (p : Byte) (rest : List Request) :
    Runs (9 * k) (s.loaded p ((List.replicate k (takeByte 0#1)).flatten ++ rest)) (ackedTrace (s.regsFrom p.toNat k))
      (s.loaded ((nextIndex s.cfg.n)^[k] p) rest) := by
  induction k generalizing p with
  | zero => exact .refl _
  | succ k ih =>
    have both := (runs_ackedByte hc p ((List.replicate k (takeByte 0#1)).flatten ++ rest)).trans
      (ih (nextIndex s.cfg.n p))
    rw [nextIndex_toNat_mod p hc.1 hc.2.1] at both
    rw [List.replicate_succ, List.flatten_cons, List.append_assoc, Nat.mul_succ, Nat.add_comm]
    exact both

/-- A read from the block's own ACK on, while the master takes each of `k` bytes with ACK. -/
theorem runs_read (h : s.AcksReadAddress) (k : Nat) (rest : List Request) :
    Runs (1 + 9 * k) { s with pending := .bit 1#1 :: (List.replicate k (takeByte 0#1)).flatten ++ rest }
      (some (.wire 0#1) :: ackedTrace (s.regsFrom s.ptr.toNat k)) (s.loaded ((nextIndex s.cfg.n)^[k] s.ptr) rest) :=
  (runs_ownAck h _).trans (runs_ackedBytes h.inv.cfg_wf k _ rest)

/-- After `k` acknowledged bytes only the pointer, the shift register and the counter differ: the pointer has been advanced
`k + 1` times. -/
theorem State.AcksReadAddress.loaded_iterate (h : s.AcksReadAddress) (k : Nat) (rest : List Request) :
    s.loaded ((nextIndex s.cfg.n)^[k] s.ptr) rest = { s with
      ptr := BitVec.ofNat 8 ((s.ptr.toNat + k + 1) % s.cfg.n), phase := .preAck, bitCount := 8,
      shiftReg := s.readReg ((s.ptr.toNat + k) % s.cfg.n), pending := rest, output := some (.wire 0#1) } := by
  rw [State.loaded, nextIndex, iterate_nextIndex_toNat h.inv.cfg_wf.1 h.inv.cfg_wf.2.1 k h.inv.ptr_lt,
    Nat.mod_add_mod, ← h.engineState_eq, ← h.dir_eq]

end Sys2Proof.Machine

open Sys2Proof Sys2Proof.Machine

/-- Settles O26: the pointer is inside the register file, and the row's selector is an ACK from the master. -/
theorem masterAckLoadsTheNextByte : Obligations.MasterAckLoadsTheNextByte := by
  refine fun s hp => ⟨execP2RdAck_loads hp, fun hph hst hack => ?_⟩
  have loads := overflowStep_loads hph hst (rwOf_eq_iff.2 hack) hp
  rw [← hst] at loads
  exact loads

/-- Settles O56: the block's own ACK, the acknowledged bytes, and the byte answered with NAK. -/
theorem readReturnsRegistersInOrder : Obligations.ReadReturnsRegistersInOrder := by
  intro s k rest hi hst hph hd h0
  have acks : s.AcksReadAddress := ⟨hi, hst, hph, hd, h0⟩
  have read := runs_read acks k
  have last := runs_nakedByte hi.cfg_wf ((nextIndex s.cfg.n)^[k] s.ptr) rest
  have whole := (read (takeByte 1#1 ++ rest)).trans last
  rw [iterate_nextIndex_toNat hi.cfg_wf.1 hi.cfg_wf.2.1 k hi.ptr_lt] at whole
  have requests : .bit 1#1 :: takeBytes (k + 1) ++ rest =
      .bit 1#1 :: (List.replicate k (takeByte 0#1)).flatten ++ (takeByte 1#1 ++ rest) := by simp [takeBytes]
  rw [requests]
  exact ⟨⟨_, acks.loaded_iterate k rest ▸ (read rest).run⟩, (read rest).trace, ⟨_, _, whole.run⟩, whole.trace⟩

/-- Settles O25, by the row's selector: the master's answer is 1. -/
theorem masterNakEndsTheRead : Obligations.MasterNakEndsTheRead :=
  ⟨fun _ => rfl, fun _ hph hst hnak => overflowStep_rdNak hph hst (rwOf_eq_iff.2 hnak)⟩

/-- Settles O27, by the row's selector. -/
theorem otherAckUnitsListenForTheNextByte : Obligations.OtherAckUnitsListenForTheNextByte :=
  ⟨fun _ => rfl, fun _ hph hst => overflowStep_other hph hst⟩

end

section
/-!
PROOFS. The host's side of the register file (43_register_file_ops): the three operations by index (R110 to R113), and the
masked write (R114).
-/

namespace Sys2Proof.Machine

variable {s : State} {i : Nat}

/-! The host's path (R42). -/

theorem atIndex_of_ge {u : State} (h : s.cfg.n ≤ i) : s.atIndex i u = .refused (.indexOutOfRange i) :=
  if_neg (Nat.not_lt.2 h)

theorem execRegWriteRaw_of_lt (v : Byte) (h : i < s.cfg.n) :
    execRegWriteRaw i v s = .next ((s.writeReg i v).emit none) :=
  atIndex_of_lt h

/-! The masked write (R114). -/

theorem mergeMasked_ones (old new : Byte) : mergeMasked old 0xFF#8 new = new :=
  BitVec.eq_of_getLsbD_eq fun k hk => by
    rw [mergeMasked_bit _ _ _ k hk, show 0xFF#8 = BitVec.allOnes 8 from rfl, BitVec.getLsbD_allOnes]
    exact if_pos (decide_eq_true hk)

theorem mergeMasked_zero (old new : Byte) : mergeMasked old 0x00#8 new = old :=
  BitVec.eq_of_getLsbD_eq fun k hk => by
    rw [mergeMasked_bit _ _ _ k hk, BitVec.getLsbD_zero]
    exact if_neg Bool.false_ne_true

theorem State.readReg_writeMasked_same (b : Byte) (h : Memory.wf s.cfg s.regs) :
    (s.writeMasked i b).readReg i = mergeMasked (s.readReg i) (maskAt s.cfg i) b :=
  State.readReg_writeReg_same h

theorem State.readReg_writeMasked_other {j : Nat} (b : Byte) (h : j ≠ i) :
    (s.writeMasked i b).readReg j = s.readReg j :=
  State.readReg_writeReg_other h

end Sys2Proof.Machine

open Sys2Proof Sys2Proof.Machine

/-- Settles O30: the index is in range, and the next state reads as after the one write of a register. -/
theorem hostWriteIgnoresTheMask : Obligations.HostWriteIgnoresTheMask := by
  intro i v s hi hn
  have other (j : Nat) (hj : j ≠ i) : (s.writeReg i v).readReg j = s.readReg j := State.readReg_writeReg_other hj
  exact ⟨_, execRegWriteRaw_of_lt v hn, State.readReg_writeReg_same hi.regs_wf, other, rfl⟩

/-- Settles O33: the register written reads as the merge of R114, whose bits and two extreme masks are known. -/
theorem maskedWritePrimitiveActsBitByBit : Obligations.MaskedWritePrimitiveActsBitByBit := by
  intro i b s hi _
  have merged := State.readReg_writeMasked_same (i := i) b hi.regs_wf
  rw [merged]
  refine ⟨mergeMasked_bit _ _ _, fun j hj => State.readReg_writeMasked_other b hj, rfl, fun hm => ?_, fun hm => ?_⟩
  · rw [hm, mergeMasked_ones]
  · rw [hm, mergeMasked_zero]

/-- Settles O29: the index is in range. -/
theorem hostReadReturnsTheRegister : Obligations.HostReadReturnsTheRegister :=
  fun _ _ hn => atIndex_of_lt hn

/-- Settles O31: the index is in range, and the masks are part of the configuration, which no operation changes (O40). -/
theorem hostReadsTheMask : Obligations.HostReadsTheMask :=
  ⟨fun _ _ hn => atIndex_of_lt hn, fun op s t h => congrArg Config.mask (configurationNeverChanges op s t h).1⟩

/-- Settles O32: each of the three takes the host's path, which refuses the index. -/
theorem hostIndexOutOfRangeIsRefused : Obligations.HostIndexOutOfRangeIsRefused :=
  fun _ _ _ hn => ⟨atIndex_of_ge hn, atIndex_of_ge hn, atIndex_of_ge hn⟩

end

section
/-!
PROOFS. The stop monitor and `INIT` (44_stop_monitor_init): the two rows of `CHECK_STOP` with their selectors (R120, R121),
`INIT` (R123), and a `CHECK_STOP` between the two steps of a unit (70_reset_and_hazards section 3, case (d)).
-/

namespace Sys2Proof.Machine

variable {s t : State}

/-! The row that `StopFlag` selects (R70). -/

theorem exec_checkStop_of_clear (hf : s.stopFlag = false) :
    exec (selectRequest s.stopFlag .checkStop) s = exec .checkStopIdle s := by
  rw [hf]
  rfl

theorem exec_checkStop_of_set (hf : s.stopFlag = true) :
    exec (selectRequest s.stopFlag .checkStop) s = exec .checkStopDone s := by
  rw [hf]
  rfl

/-! What a `CHECK_STOP` that finds a stop leaves (R121). -/

/-- The row's state in full: the pointer stays where nothing was counted. -/
theorem execCheckStopDone_resets (s : State) : execCheckStopDone s = .next { s with
    stopFlag := false, engineState := .addrMatch, ptr := if s.tally = 0 then s.ptr else 0#8, tally := 0,
    output := some (.count s.tally) } := by
  have pointer : (if s.tally ≠ 0 then 0#8 else s.ptr) = if s.tally = 0 then s.ptr else 0#8 := ite_not _ _ _
  rw [← pointer]
  rfl

/-- The engine state is forced, but not the phase: a unit in the middle of its count stays one of the same kind. -/
theorem execCheckStopDone_mode (h : execCheckStopDone s = .next t) : t.engineState = .addrMatch ∧ t.phase = s.phase := by
  cases h
  exact ⟨rfl, rfl⟩

/-! `INIT` (R123). -/

/-- A block that awaits an address and has put nothing out is what `INIT` makes of any block: it changes nothing there. -/
theorem execInit_of_awaiting (hst : s.engineState = .addrMatch) (hb : s.bitCount = 8) (hph : s.phase = .preAck)
    (hd : s.dir = .listening) (ho : s.output = none) : execInit s = .next s := by
  have unchanged : s.awaitAddress.emit none = s := by
    obtain ⟨⟩ := s
    cases hst; cases hb; cases hph; cases hd; cases ho
    rfl
  exact congrArg Host.Outcome.next unchanged

end Sys2Proof.Machine

open Sys2Proof Sys2Proof.Machine

/-- Settles O34, by the definition of the row and the selector `StopFlag` 0. -/
theorem checkStopIdleReturnsZero : Obligations.CheckStopIdleReturnsZero :=
  fun _ => ⟨rfl, exec_checkStop_of_clear⟩

/-- Settles O35, by the row's state in full and the selector `StopFlag` 1. -/
theorem checkStopDoneReportsAndResets : Obligations.CheckStopDoneReportsAndResets :=
  fun s => ⟨execCheckStopDone_resets s, exec_checkStop_of_set⟩

/-- Settles O36: both what `INIT` leaves and what `RESET` leaves is a block that awaits an address. -/
theorem initIsIdempotentAndEqualsStart : Obligations.InitIsIdempotentAndEqualsStart := by
  refine fun s => ⟨rfl, rfl, fun t h => ?_, fun t h => ?_⟩ <;> cases h
  all_goals exact execInit_of_awaiting rfl rfl rfl rfl rfl

/-- Settles O59: the engine state is `AddrMatch` in a phase that is still `PostAck`, and that selects `P2.OTHER`. -/
theorem checksBetweenTheStepsOfAUnitFreeTheLine : Obligations.ChecksBetweenTheStepsOfAUnitFreeTheLine := by
  intro s t h hph
  obtain ⟨hst, same_phase⟩ := execCheckStopDone_mode h
  have row : overflowStep t = exec .p2Other t :=
    overflowStep_other (same_phase.trans hph) (by rw [hst]; decide)
  exact ⟨row, row⟩

end

section
/-!
PROOFS. What stops the block (R130, R113): with the pointer inside the register file no operation faults (R28), and only the
host's path refuses.
-/

namespace Sys2Proof.Machine

variable {s : State}

/-- The host's path answers a next state or refuses its index (R42, R113). -/
theorem atIndex_completes_or_refuses (s : State) (i : Nat) (u : State) :
    (∃ t, s.atIndex i u = .next t) ∨ s.cfg.n ≤ i ∧ s.atIndex i u = .refused (.indexOutOfRange i) :=
  (Nat.lt_or_ge i s.cfg.n).imp (fun hlt => ⟨u, atIndex_of_lt hlt⟩) fun hge => ⟨hge, atIndex_of_ge hge⟩

/-- The host operations that carry an index of their own (R42). -/
inductive CarriesIndex (i : Nat) : Request → Prop where
  | regRead : CarriesIndex i (.regRead i)
  | regWriteRaw (v : Byte) : CarriesIndex i (.regWriteRaw i v)
  | maskRead : CarriesIndex i (.maskRead i)

/-- With the pointer inside the register file every request is answered, unless its index is refused. -/
theorem selected_completes_or_refuses (r : Request) (hp : s.ptr.toNat < s.cfg.n) :
    (∃ t, exec (selectRequest s.stopFlag r) s = .next t) ∨
    ∃ i, CarriesIndex i r ∧ s.cfg.n ≤ i ∧ exec (selectRequest s.stopFlag r) s = .refused (.indexOutOfRange i) := by
  cases r
  case bit m =>
    obtain ⟨t, ht, -⟩ := execBit_completes m hp
    exact .inl ⟨t, ht⟩
  case regRead i => exact (atIndex_completes_or_refuses s i _).imp_right fun stop => ⟨i, .regRead, stop⟩
  case regWriteRaw i v => exact (atIndex_completes_or_refuses s i _).imp_right fun stop => ⟨i, .regWriteRaw v, stop⟩
  case maskRead i => exact (atIndex_completes_or_refuses s i _).imp_right fun stop => ⟨i, .maskRead, stop⟩
  case checkStop => cases s.stopFlag <;> exact .inl ⟨_, rfl⟩
  case start | stop | init | reset => exact .inl ⟨_, rfl⟩

end Sys2Proof.Machine

open Sys2Proof Sys2Proof.Machine

/-- Settles O39: the configuration is one of the block, so the step is the operation of the oldest request, which runs with
the pointer inside the register file. -/
theorem onlyAHostIndexOutOfRangeStopsTheBlock : Obligations.OnlyAHostIndexOutOfRangeStopsTheBlock := by
  intro s hi
  rcases hp : s.pending with _ | ⟨r, rest⟩
  · exact .inl ⟨s, step_idle hp⟩
  · rw [step_request hp hi.cfg_wf]
    refine (selected_completes_or_refuses (s := { s with pending := rest }) r hi.ptr_lt).imp_right ?_
    rintro ⟨i, carries, hn, refused⟩
    refine ⟨i, rest, hn, refused, ?_⟩
    cases carries
    case regRead => exact .inl rfl
    case regWriteRaw v => exact .inr (.inl ⟨v, rfl⟩)
    case maskRead => exact .inr (.inr rfl)

end

section
/-!
PROOFS. The operation `RESET` (70_reset_and_hazards, R150): outside `ShiftReg` it leaves the state after reset (R30).
-/

open Sys2Proof Sys2Proof.Machine

/-- Settles O2, from O1: next to the free `ShiftReg`, `RESET` answers the state after reset in the configuration of `s` but for
fields of the model's own. -/
theorem resetOperationRestoresEverything : Obligations.ResetOperationRestoresEverything := by
  intro s
  obtain ⟨regs, cfg, engineState, ptr, tally, phase, bitCount, dir, stopFlag⟩ := resetLeavesTheValuesOfTheSpec s.cfg
  exact ⟨_, exec_reset, regs, engineState, ptr, tally, stopFlag, bitCount, phase, dir, cfg⟩

end

section
/-!
PROOFS. The edges of the reachable states: the state after reset follows the direction table (R99), and the master's path
stops at a pointer outside the register file (R13, R41), where no run arrives.
-/

namespace Sys2Proof.Machine

variable {s : State}

/-- The master's path faults before it forms a next state: whatever would have followed, nothing is read or written. -/
theorem atPointer_of_ge {k : Nat → State} (h : s.cfg.n ≤ s.ptr.toNat) :
    s.atPointer k = .fault (.pointerOutOfRange s.ptr) :=
  if_neg (Nat.not_lt.2 h)

end Sys2Proof.Machine

open Sys2Proof Sys2Proof.Machine

/-- Settles O28: both rows go through the master's path. -/
theorem pointerOutsideTheFileIsNeverDereferenced : Obligations.PointerOutsideTheFileIsNeverDereferenced := by
  intro d s outside
  rw [exec_p1Wr, exec_p2RdAck]
  exact ⟨atPointer_of_ge outside, atPointer_of_ge outside⟩

/-- Settles O41: after reset the block listens to an address byte (O1), in `AddrMatch`. -/
theorem lineTableHoldsAtReset : Obligations.LineTableHoldsAtReset := by
  intro c
  obtain ⟨-, -, engineState, -, -, phase, -, dir, -⟩ := resetLeavesTheValuesOfTheSpec c
  exact State.followsLineTable_addrMatch engineState phase dir

end
